-- ==== Sys2Proof/Word.lean ====
section
/-! DEFINITION. The plain data types of the block: register words, bytes, sample indices, scalars, complex values.

`00_scope.md` R9 leaves the scalar type `S` to the model; this model takes the exact rational numbers (log entry 1).
Nothing here computes: the operations over these types stand in `Machine/Num.lean`. -/

namespace Sys2Proof

/-- A 32-bit host register or command word, bits numbered from 0 at the least significant end (00_scope.md §8). -/
abbrev Word := BitVec 32

/-- One byte of a byte-addressed bus or of a raw sample (20_memory.md R61, R62). -/
abbrev Byte := BitVec 8

/-- A 64-bit sample index or time stamp (10_state.md R22, R42). -/
abbrev Index := BitVec 64

/-- The scalar type `S` of the numerics configuration `NUM` (00_scope.md R9): exact rationals, log entry 1. -/
abbrev Scalar := Rat

/-- A complex scalar `i + j·q` (10_state.md R27, R36). -/
structure Cplx where
  re : Scalar
  im : Scalar
deriving DecidableEq, Repr, Inhabited

end Sys2Proof
end

