-- ==== Sys2Proof/Syntax.lean ====
section
/-! DEFINITION. The command set: one constructor per row of spec/opcode_table.json (30_encoding.md R83). -/

namespace Sys2Proof

/-- The seven commands (30_encoding.md R83). Operands are unsigned fields of the word as they stand (R82); whether a
value is legal is `Instr.wellFormed`. -/
inductive Instr where
  /-- `NOP`, format Z (43_host.md R185). -/
  | nop
  /-- `WCAP`, format Z: capture a window (41_acquire.md R110). -/
  | wcap
  /-- `ACQ sv[, COLD]`, format S: start a search (41_acquire.md R112). -/
  | acq (cold : Bool) (sv : BitVec 6)
  /-- `ACQABORT`, format Z: cancel (41_acquire.md R113). -/
  | acqabort
  /-- `TSEED ch, sv`, format CS: seed a channel (42_track.md R140). -/
  | tseed (ch : BitVec 4) (sv : BitVec 6)
  /-- `TSTOP ch`, format C: release a channel (42_track.md R141). -/
  | tstop (ch : BitVec 4)
  /-- `SRESET`, format Z: soft reset (43_host.md R186). -/
  | sreset
deriving DecidableEq, Repr

end Sys2Proof
end

