-- ==== Sys2Proof/WellFormed.lean ====
section
/-! DEFINITION. Which operand values of a command are legal (30_encoding.md R81, R84). -/

namespace Sys2Proof

/-- An SV id of a command is legal when it is 1..32 (30_encoding.md R81). -/
def svLegal (sv : BitVec 6) : Bool :=
  decide (1 ≤ sv.toNat) && decide (sv.toNat ≤ 32)

/-- A channel number of a command is legal when it is 0..9 (30_encoding.md R81). -/
def chLegal (ch : BitVec 4) : Bool :=
  decide (ch.toNat ≤ 9)

/-- The operands of the command are all in range (30_encoding.md R84). -/
def Instr.wellFormed : Instr → Bool
  | .nop => true
  | .wcap => true
  | .acq _ sv => svLegal sv
  | .acqabort => true
  | .tseed ch sv => chLegal ch && svLegal sv
  | .tstop ch => chLegal ch
  | .sreset => true

end Sys2Proof
end

