-- ==== Sys2Proof/Decode.lean ====
section
/-! DEFINITION. Decoding a command word, total on any word or bytes, and the encoder beside it (30_encoding.md R81 to R85).

A word that matches a row of R83 decodes to that row's command with its operand fields as they stand; an operand out
of range is refused by the command itself (R84, R203 step 2), so decoding loses no word. -/

namespace Sys2Proof

/-- Why a word is no command (30_encoding.md R84). -/
inductive DecodeError where
  /-- The OP field is none of the seven of R83. -/
  | reservedOp (op : BitVec 8)
  /-- The OP field is one of the seven and a must-be-zero bit of its format is 1. -/
  | mustBeZero (op : BitVec 8)
  /-- A command has exactly four bytes (R80, R85). -/
  | badLength (n : Nat)
deriving DecidableEq, Repr

/-- `OP = w[31:24]` (30_encoding.md R81). -/
def opField (w : Word) : BitVec 8 := w.extractLsb' 24 8

/-- `CH = w[19:16]` (30_encoding.md R81). -/
def chField (w : Word) : BitVec 4 := w.extractLsb' 16 4

/-- `COLD = w[8]` (30_encoding.md R81). -/
def coldField (w : Word) : Bool := w.getLsbD 8

/-- `SV = w[5:0]` (30_encoding.md R81). -/
def svField (w : Word) : BitVec 6 := w.extractLsb' 0 6

/-- One row of the opcode map (30_encoding.md R83): a word `w` selects it when `w & mask = pattern`. -/
structure OpRow where
  pattern : Word
  mask : Word
  build : Word → Instr

/-- The row is selected by the word (30_encoding.md R83). -/
def OpRow.selects (r : OpRow) (w : Word) : Bool := w &&& r.mask == r.pattern

/-- The opcode map, row for row (30_encoding.md R83). -/
def opRows : List OpRow :=
  [ { pattern := 0x00000000#32, mask := 0xFFFFFFFF#32, build := fun _ => .nop },
    { pattern := 0x10000000#32, mask := 0xFFFFFFFF#32, build := fun _ => .wcap },
    { pattern := 0x11000000#32, mask := 0xFFFFFEC0#32, build := fun w => .acq (coldField w) (svField w) },
    { pattern := 0x12000000#32, mask := 0xFFFFFFFF#32, build := fun _ => .acqabort },
    { pattern := 0x20000000#32, mask := 0xFFF0FFC0#32, build := fun w => .tseed (chField w) (svField w) },
    { pattern := 0x21000000#32, mask := 0xFFF0FFFF#32, build := fun w => .tstop (chField w) },
    { pattern := 0x7F000000#32, mask := 0xFFFFFFFF#32, build := fun _ => .sreset } ]

/-- The OP values of the seven commands (30_encoding.md R83); all others are reserved (R84). -/
def opListed (op : BitVec 8) : Bool :=
  opRows.any fun r => opField r.pattern == op

/-- Why a word that selects no row is illegal (30_encoding.md R84). -/
def decodeError (w : Word) : DecodeError :=
  if opListed (opField w) then .mustBeZero (opField w) else .reservedOp (opField w)

/-- Read a command word (30_encoding.md R83, R84). -/
def decode (w : Word) : Except DecodeError Instr :=
  match opRows.find? (fun r => r.selects w) with
  | some r => .ok (r.build w)
  | none => .error (decodeError w)

/-- The word of four bytes, the first at the lowest address: little-endian (20_memory.md R61). -/
def wordOfBytes (b0 b1 b2 b3 : Byte) : Word := b3 ++ b2 ++ b1 ++ b0

/-- The byte at `off + k` of a register holds its bits `[8k+7 : 8k]` (20_memory.md R61). -/
def byteLane (w : Word) (k : Nat) : Byte := w.extractLsb' (8 * k) 8

/-- A word as a byte-addressed bus carries it, lowest address first (20_memory.md R61). -/
def bytesOfWord (w : Word) : List Byte := [byteLane w 0, byteLane w 1, byteLane w 2, byteLane w 3]

/-- Read a command from bytes as a byte bus carries it; every command has four bytes (30_encoding.md R80, R85). -/
def decodeBytes : List Byte → Except DecodeError Instr
  | [b0, b1, b2, b3] => decode (wordOfBytes b0 b1 b2 b3)
  | bs => .error (.badLength bs.length)

/-- The word of a command, written from the format patterns of 30_encoding.md R81 and the OP column of R83. -/
def encode : Instr → Word
  | .nop => 0x00#8 ++ 0#24
  | .wcap => 0x10#8 ++ 0#24
  | .acq cold sv => 0x11#8 ++ 0#15 ++ BitVec.ofBool cold ++ 0#2 ++ sv
  | .acqabort => 0x12#8 ++ 0#24
  | .tseed ch sv => 0x20#8 ++ 0#4 ++ ch ++ 0#10 ++ sv
  | .tstop ch => 0x21#8 ++ 0#4 ++ ch ++ 0#16
  | .sreset => 0x7F#8 ++ 0#24

/-- What the decoder reads from an instruction whose bits are `w`, numbered as spec/opcode_table.json numbers them:
the low `nbits` of `w`, laid out in the bus's byte order and given to `decodeBytes`. -/
def decodeTableWord (nbits w : Nat) : Option Instr :=
  match decodeBytes (bytesOfWord (BitVec.ofNat 32 (w % 2 ^ nbits))) with
  | .ok i => some i
  | .error _ => none

end Sys2Proof
end

