-- ==== Sys2Proof/Config.lean ====
section
/-! DEFINITION. What an implementation fixes and the spec leaves open: the numerics `NUM`, the open parameters
`U8_BIAS`, `G2_TAPS`, `WIN_DEPTH` (00_scope.md R6), and the free values of 93_implementation_defined.md.

A constant declared `opaque` here has no body: nothing in Lean can evaluate it, so a theorem about it holds for
every value it may have. -/

namespace Sys2Proof

/-- `r` is the reference real value `v` up to a rounding of unit `ulp`, absolute near 0 and relative for large values
(00_scope.md R9: "every result in this spec is the reference value up to that rounding"). -/
def Near (ulp r : Rat) (v : ℝ) : Prop :=
  |(r : ℝ) - v| ≤ (ulp : ℝ) * (1 + |v|)

/-- The numerics configuration `NUM` (00_scope.md R9) over the rational scalars (log entry 1).
Sums, products, quotients, comparison and `floor` are those of the rationals, exactly the reference's. `isNumber` says
which exact results are numbers of `S`; an operation that leaves them is a numeric exception (60_exceptions.md R208).
The five functions and `π` are the reference's up to a rounding of unit `ulp`, and exact at the points named, where the
reference value is itself rational; those points, the exact period and `sqrt_nonneg` are the model's choice beyond R9 (DESIGN CHOICE, log entry 1).
The defaults exist only to show that such a `NUM` exists; `Config.num` is opaque. -/
structure Numerics where
  /-- The unit of rounding of the functions below. -/
  ulp : Rat := 2
  /-- Which exact results are numbers of `S`: a `NUM` with a finite range leaves some out. -/
  isNumber : Scalar → Bool := fun _ => true
  /-- The constant π. -/
  pi : Scalar := 3
  /-- Square root; called on sums of squares only (60_exceptions.md R208). -/
  sqrt : Scalar → Scalar := fun x => if Rat.sqrt x * Rat.sqrt x = x then |Rat.sqrt x| else 0
  /-- The principal arctangent of one argument, in radians (42_track.md R153). -/
  atan : Scalar → Scalar := fun _ => 0
  /-- The cosine of 2π·t, t in turns. -/
  cos2pi : Scalar → Scalar := fun _ => 1
  /-- The sine of 2π·t, t in turns. -/
  sin2pi : Scalar → Scalar := fun _ => 0
  /-- The decimal logarithm; called on positive ratios only. -/
  log10 : Scalar → Scalar := fun _ => 0
  pi_near : Near ulp pi Real.pi := by
    unfold Near; have h1 := Real.pi_gt_three; have h2 := Real.pi_le_four
    rw [abs_le, abs_of_pos Real.pi_pos]; push_cast; constructor <;> linarith
  sqrt_near : ∀ x : Rat, 0 ≤ x → Near ulp (sqrt x) (Real.sqrt x) := by
    intro x hx
    unfold Near
    have hpos := Real.sqrt_nonneg (x : ℝ)
    split
    · next h =>
      have e : Real.sqrt (x : ℝ) = ((|Rat.sqrt x| : Rat) : ℝ) := by
        have hx2 : (x : ℝ) = ((|Rat.sqrt x| : Rat) : ℝ) ^ 2 := by
          rw [← h]; push_cast; rw [sq_abs, h]; ring
        rw [hx2, Real.sqrt_sq (by exact_mod_cast abs_nonneg _)]
      rw [e, sub_self, abs_zero]; positivity
    · rw [abs_of_nonneg hpos, Rat.cast_zero, zero_sub, abs_neg, abs_of_nonneg hpos]; push_cast; linarith
  atan_near : ∀ x : Rat, Near ulp (atan x) (Real.arctan x) := by
    intro x; unfold Near; have := abs_nonneg (Real.arctan (x : ℝ))
    rw [Rat.cast_zero, zero_sub, abs_neg]; push_cast; linarith
  cos2pi_near : ∀ t : Rat, Near ulp (cos2pi t) (Real.cos (2 * Real.pi * t)) := by
    intro t; unfold Near; have h := abs_le.mp (Real.abs_cos_le_one (2 * Real.pi * t))
    have := abs_nonneg (Real.cos (2 * Real.pi * t))
    rw [abs_le]; push_cast; constructor <;> linarith [h.1, h.2]
  sin2pi_near : ∀ t : Rat, Near ulp (sin2pi t) (Real.sin (2 * Real.pi * t)) := by
    intro t; unfold Near; have := abs_nonneg (Real.sin (2 * Real.pi * t))
    rw [Rat.cast_zero, zero_sub, abs_neg]; push_cast; linarith
  log10_near : ∀ x : Rat, 0 < x → Near ulp (log10 x) (Real.logb 10 x) := by
    intro x _; unfold Near; have := abs_nonneg (Real.logb 10 (x : ℝ))
    rw [Rat.cast_zero, zero_sub, abs_neg]; push_cast; linarith
  /-- The square root of a rational square is rational, so it is exact. -/
  sqrt_sq : ∀ x : Rat, 0 ≤ x → sqrt (x * x) = x := by
    intro x hx; simp [Rat.sqrt_eq, abs_of_nonneg hx]
  /-- A root of an argument that is not negative is not negative. R9 promises only the reference value up to rounding, so
  this is the model's choice (DESIGN CHOICE, log entry 1); of a negative argument nothing is said, and no rule has one. -/
  sqrt_nonneg : ∀ x : Rat, 0 ≤ x → 0 ≤ sqrt x := by
    intro x _; by_cases h : Rat.sqrt x * Rat.sqrt x = x <;> simp [h]
  atan_zero : atan 0 = 0 := by rfl
  cos2pi_zero : cos2pi 0 = 1 := by rfl
  sin2pi_zero : sin2pi 0 = 0 := by rfl
  log10_one : log10 1 = 0 := by rfl
  /-- `cis` has period 1 (00_scope.md R10). -/
  cos2pi_add_one : ∀ t : Rat, cos2pi (t + 1) = cos2pi t := by intro t; rfl
  sin2pi_add_one : ∀ t : Rat, sin2pi (t + 1) = sin2pi t := by intro t; rfl
deriving Inhabited

namespace Config

/-- The numerics of the implementation, an open parameter (00_scope.md R6 `NUM`, 93_implementation_defined.md U8). -/
opaque num : Numerics

/-- `U8_BIAS`, the offset of `uint8_iq` samples: open, no default (20_memory.md R62, 93_implementation_defined.md U10). -/
opaque u8Bias : Scalar

/-- `WIN_DEPTH`, the capacity of the window memory in samples; `none` is unbounded, the default of the spec
(00_scope.md R6, 93_implementation_defined.md U12, log entry 5). -/
def winDepth : Option Nat := none

/-- `G2_TAPS`: the pair of G2 stage numbers of SV 1, 2, .., 32 in this order, the default table of 40_prn.md R102
(93_implementation_defined.md U11, log entry 6). -/
def g2Taps : List (Nat × Nat) :=
  [(2, 6), (3, 7), (4, 8), (5, 9), (1, 9), (2, 10), (1, 8), (2, 9),
   (3, 10), (2, 3), (3, 4), (5, 6), (6, 7), (7, 8), (8, 9), (9, 10),
   (1, 4), (2, 5), (3, 6), (4, 7), (5, 8), (6, 9), (1, 3), (4, 6),
   (5, 7), (6, 8), (7, 9), (8, 10), (1, 6), (2, 7), (3, 8), (4, 9)]

/-- A scalar the spec leaves without a value, a fresh one for each reading of the counter
(`peak_snr_db`, 93_implementation_defined.md U3). -/
opaque freeScalar : Nat → Scalar

/-- What a cell of the window memory that no capture has written holds (93_implementation_defined.md U1);
no reachable state reads one. -/
opaque freeSample : Nat → Cplx

/-- A chip of a code that does not exist (SV outside 1..32, 40_prn.md R107); no reachable state reads one. -/
opaque freeChip : Nat → Nat → Bool

end Config

end Sys2Proof
end

