-- ==== Sys2Proof/Machine/State.lean ====
section
/-! DEFINITION. The state of the block, whole, as plain data (10_state.md R20 to R42), and the state after reset (R40).

Three fields of `State` are the model's own and none of the block's: `inputs` (the schedule of the agents' steps),
`hostResp` (the answer to the host's last access) and `freeCount` (which free value comes next). -/

namespace Sys2Proof.Machine

/-- Number of tracking channels (00_scope.md R6). -/
abbrev nch : Nat := 10

/-- The number of a tracking channel (10_state.md R30). -/
abbrev Chan := Fin nch

/-! ### Codes -/

/-- Outcome of the last command (10_state.md R25); codes 11 to 15 are never produced. -/
inductive CmdStat where
  | ok | illegal | busy | noWindow | chBusy | slotsFull | dupSv | badSeed | notBusy | faulted | chIdle
deriving DecidableEq, Repr, Inhabited

/-- State of a tracking channel (10_state.md R30, 42_track.md R158). -/
inductive ChState where
  | idle | acquired | pullIn | locked | unlocked
deriving DecidableEq, Repr, Inhabited

/-- `ACQ.res_status` (10_state.md R28). -/
inductive ResStatus where
  | none | ok | failed | cancelled
deriving DecidableEq, Repr, Inhabited

/-- `kind` of an EVENT record (10_state.md R39). -/
inductive EventKind where
  | acquired | locked | unlocked | error
deriving DecidableEq, Repr

/-- `stage` of an EVENT record (10_state.md R39). -/
inductive Stage where
  | source | acquirer | tracker
deriving DecidableEq, Repr

/-- `err` of an EVENT record (10_state.md R39, 60_exceptions.md R201). -/
inductive Err where
  | none | acquisitionFailed | lockLost | sampleSourceOverrun | configInvalid | internalInvariant
deriving DecidableEq, Repr

/-- The two fatal kinds that `raise Fault` latches (60_exceptions.md R201, R204). -/
inductive FatalKind where
  | configInvalid | internalInvariant
deriving DecidableEq, Repr

/-! ### Records of the output ports -/

/-- PROMPT record (10_state.md R38). -/
structure Prompt where
  svId : BitVec 6
  tRx : Index
  i : Scalar
  q : Scalar
deriving DecidableEq, Repr

/-- REPORT record (10_state.md R37). -/
structure Report where
  ok : Bool
  svId : BitVec 6
  dopplerHz : Int
  codePhase : Nat
  peak : Scalar
  second : Scalar
  peakSnrDb : Scalar
  acquiredAt : Index
deriving DecidableEq, Repr

/-- EVENT record (10_state.md R39). -/
structure Event where
  kind : EventKind
  svId : BitVec 6
  stage : Stage
  err : Err
  t : Index
deriving DecidableEq, Repr

/-! ### Host registers -/

/-- Every register of the map of 10_state.md R23. -/
inductive RegName where
  | id | cmd | cmdStat | status
  | sampleRate | sampleFmt | centerFreq
  | acqDoppRange | acqDoppRangeCold | acqDoppStep | acqThresh | acqK | maxTracked
  | pllBw | dllBw | lockThresh
  | seedDoppler | seedCphase | seedAidxLo | seedAidxHi
  | sidxLo | sidxHi
  | prnSel | prnData
  | acqResStatus | acqResSv | acqResDoppler | acqResCphase | acqResAidxLo | acqResAidxHi
  | winStartLo | winStartHi
  | chStatus (c : Chan)
  | chEpochs (c : Chan)
deriving DecidableEq, Repr

/-- The read-write registers, the only ones that store what the host writes (10_state.md R23). -/
structure Regs where
  sampleRate : Word
  sampleFmt : Word
  centerFreq : Word
  acqDoppRange : Word
  acqDoppRangeCold : Word
  acqDoppStep : Word
  acqThresh : Word
  acqK : Word
  maxTracked : Word
  pllBw : Word
  dllBw : Word
  lockThresh : Word
  seedDoppler : Word
  seedCphase : Word
  seedAidxLo : Word
  seedAidxHi : Word
  prnSel : Word
deriving DecidableEq, Repr

/-- The reset column of 10_state.md R23 for the read-write registers. -/
def Regs.reset : Regs where
  sampleRate := 0#32
  sampleFmt := 0#32
  centerFreq := 1575420000#32
  acqDoppRange := 5000#32
  acqDoppRangeCold := 10000#32
  acqDoppStep := 200#32
  acqThresh := 0x00028000#32
  acqK := 10#32
  maxTracked := 10#32
  pllBw := 0x000A0000#32
  dllBw := 0x00010000#32
  lockThresh := 0#32
  seedDoppler := 0#32
  seedCphase := 0#32
  seedAidxLo := 0#32
  seedAidxHi := 0#32
  prnSel := 0#32

/-! ### Window memory and acquisition engine -/

/-- The window memory's contents: (sample index, sample) pairs with strictly rising indices; an index not listed has
not been written (10_state.md R27, 93_implementation_defined.md U1). -/
abbrev WinMem := List (Nat × Cplx)

/-- The window memory `WIN` (10_state.md R27). -/
structure Win where
  capturing : Bool
  valid : Bool
  /-- `WIN.Fs`, the latched SAMPLE_RATE. -/
  fs : Nat
  /-- `WIN.N = Fs div 1000`. -/
  n : Nat
  /-- `WIN.K`, the latched ACQ_K. -/
  k : Nat
  count : Nat
  start : Index
  data : WinMem
deriving DecidableEq, Repr

/-- `WIN` after reset (10_state.md R40). The contents are unspecified there; the model lists nothing (log entry 4). -/
def Win.reset : Win :=
  { capturing := false, valid := false, fs := 0, n := 0, k := 0, count := 0, start := 0#64, data := [] }

/-- The result registers `ACQ.res_*` (10_state.md R28), each as wide as the register that shows it. -/
structure AcqResult where
  status : ResStatus
  sv : BitVec 6
  /-- Signed. -/
  doppler : Word
  cphase : Word
  aidx : Index
deriving DecidableEq, Repr, Inhabited

/-- The acquisition engine `ACQ` (10_state.md R28). -/
structure Acq where
  busy : Bool
  done : Bool
  sv : BitVec 6
  /-- `ACQ.R`, the Doppler range in Hz. -/
  range : Nat
  /-- `ACQ.step` in Hz. -/
  step : Nat
  /-- `ACQ.thr`, the threshold ratio. -/
  thr : Scalar
  res : AcqResult
deriving DecidableEq, Repr

/-- `ACQ` after reset (10_state.md R40). -/
def Acq.reset : Acq :=
  { busy := false, done := false, sv := 0#6, range := 0, step := 0, thr := 0,
    res := { status := .none, sv := 0#6, doppler := 0#32, cphase := 0#32, aidx := 0#64 } }

/-! ### Tracking channels -/

/-- The record of one tracking channel `CH[c]` (10_state.md R30). -/
structure Channel where
  st : ChState
  sv : BitVec 6
  /-- `Fs`, SAMPLE_RATE latched at TSEED. -/
  fs : Nat
  wn : Scalar
  gdll : Scalar
  thr : Scalar
  /-- `f_seed`, Hz. -/
  fSeed : Int
  /-- `cp_seed`, samples. -/
  cpSeed : Nat
  aidx : Index
  phasePending : Bool
  theta : Scalar
  f : Scalar
  pint : Scalar
  cp : Scalar
  rate : Scalar
  ie : Scalar
  qe : Scalar
  ip : Scalar
  qp : Scalar
  il : Scalar
  ql : Scalar
  aligned : Bool
  estart : Index
  pullCnt : BitVec 9
  belowCnt : BitVec 11
  epochs : Word
  /-- (I, Q) of the most recent prompts, newest last (10_state.md R32). -/
  pbuf : List Cplx
deriving DecidableEq, Repr, Inhabited

/-- A channel after reset (10_state.md R40): IDLE, every other field 0, `pbuf` empty. -/
def Channel.reset : Channel where
  st := .idle
  sv := 0#6
  fs := 0
  wn := 0
  gdll := 0
  thr := 0
  fSeed := 0
  cpSeed := 0
  aidx := 0#64
  phasePending := false
  theta := 0
  f := 0
  pint := 0
  cp := 0
  rate := 0
  ie := 0
  qe := 0
  ip := 0
  qp := 0
  il := 0
  ql := 0
  aligned := false
  estart := 0#64
  pullCnt := 0#9
  belowCnt := 0#11
  epochs := 0#32
  pbuf := []

/-! ### Fault latch -/

/-- The fault latch `FAULT` (10_state.md R35). -/
structure FaultLatch where
  set : Bool
  code : BitVec 4
deriving DecidableEq, Repr

/-! ### The agents' steps -/

/-- One step of one agent (00_scope.md R7), as the schedule lists it. -/
inductive Input where
  /-- The host reads at a byte offset with an access of `width` bits (43_host.md R180, R182). -/
  | read (off width : Nat)
  /-- The host writes at a byte offset with an access of `width` bits (43_host.md R181, R182). -/
  | write (off width : Nat) (v : Word)
  /-- The sample source delivers a typed sample (43_host.md R190, 10_state.md R36). -/
  | sample (n : Index) (x : Cplx)
  /-- The sample source delivers a raw sample with its index: byte `b_k` is bits `[8k+7 : 8k]`, and a format whose raw
  size is 2 bytes takes `b0 b1` (20_memory.md R62). -/
  | raw (n : Index) (bytes : BitVec 64)
  /-- The acquisition engine is given its turn: `AcqFinish` where it is enabled (41_acquire.md R114). -/
  | acqFinish
deriving DecidableEq, Repr

/-- What the register port answered to the host's last access (43_host.md R180 to R182). -/
inductive HostResp where
  /-- No access since reset. -/
  | none
  /-- A read delivered this value. -/
  | data (v : Word)
  /-- A write was accepted. -/
  | done
  /-- A bus error: a read delivered no value, a write changed nothing. -/
  | busError
deriving DecidableEq, Repr

/-! ### The state -/

/-- The whole state of the block (10_state.md R20), and the three fields of the model's own. -/
structure State where
  /-- The read-write registers (10_state.md R23). -/
  regs : Regs
  /-- CMDSTAT (10_state.md R25). -/
  cmdStat : CmdStat
  /-- `SIDX` (10_state.md R22). -/
  sidx : Index
  /-- `SIDX_VALID` (10_state.md R22). -/
  sidxValid : Bool
  /-- The hidden latch that SIDX_HI reads (20_memory.md R66). -/
  sidxHiLatch : Word
  /-- `WIN` (10_state.md R27). -/
  win : Win
  /-- `ACQ` (10_state.md R28). -/
  acq : Acq
  /-- `CH[0]` .. `CH[9]` (10_state.md R30). -/
  ch : Vector Channel nch
  /-- `FAULT` (10_state.md R35). -/
  fault : FaultLatch
  /-- Trace of the PROMPT port, oldest first (10_state.md R34). -/
  prompts : List Prompt
  /-- Trace of the REPORT port, oldest first (10_state.md R34). -/
  reports : List Report
  /-- Trace of the EVENT port, oldest first (10_state.md R34). -/
  events : List Event
  /-- The model's own: the agents' steps still to come, the next one first (log entry 2). -/
  inputs : List Input
  /-- The model's own: the answer to the host's last access (log entry 3). -/
  hostResp : HostResp
  /-- The model's own: how many free values have been taken (log entry 7). -/
  freeCount : Nat
deriving DecidableEq, Repr

/-- The machine right after hardware reset (10_state.md R40, 70_reset_and_hazards.md R230): every field at the value the
spec states. The schedule is empty, no access has been made and no free value taken (the model's own fields). -/
def State.reset : State where
  regs := Regs.reset
  cmdStat := .ok
  sidx := 0#64
  sidxValid := false
  sidxHiLatch := 0#32
  win := Win.reset
  acq := Acq.reset
  ch := Vector.replicate nch Channel.reset
  fault := { set := false, code := 0#4 }
  prompts := []
  reports := []
  events := []
  inputs := []
  hostResp := .none
  freeCount := 0

/-! ### Ways a step can stop -/

/-- Why the machine would stop for good. It has no constructor: every rule of the spec ends in a next state. What the
spec calls a fault is a latch, `State.fault`, in a machine that goes on (60_exceptions.md R200, R205). Safe. -/
inductive Fault where
deriving DecidableEq, Repr

/-- Why the model would give a step no meaning. -/
inductive Refusal where
  /-- Raised by an arm of `exec` for a command without a meaning yet; no arm raises it. Safe. -/
  | notModelled (mnemonic : String)
deriving DecidableEq, Repr

/-- What a step answers. -/
abbrev StepResult := Host.Outcome State Fault Refusal

end Sys2Proof.Machine

namespace Sys2Proof

/-- The record of a channel after a numeric exception: unspecified, a free value (60_exceptions.md R208,
93_implementation_defined.md U13). -/
opaque Config.freeChannel : Nat → Machine.Channel

/-- The result registers after a numeric exception in a search: unspecified, a free value (60_exceptions.md R208,
93_implementation_defined.md U13). -/
opaque Config.freeResult : Nat → Machine.AcqResult

end Sys2Proof
end

