-- ==== Sys2Proof/Machine/Num.lean ====
section
/-! DEFINITION. The operations of the numerics configuration `NUM` (00_scope.md R9), each answering `none` where its
result is no number of `S` (60_exceptions.md R208), and complex values over them. -/

namespace Sys2Proof.Machine

/-- The result of an operation of `NUM`, where it is a number of `S` (60_exceptions.md R208). -/
def chk (nm : Numerics) (x : Scalar) : Option Scalar :=
  if nm.isNumber x then some x else none

/-- `+` of `NUM` (00_scope.md R9). -/
def nAdd (nm : Numerics) (a b : Scalar) : Option Scalar := chk nm (a + b)

/-- `−` of `NUM` (00_scope.md R9). -/
def nSub (nm : Numerics) (a b : Scalar) : Option Scalar := chk nm (a - b)

/-- `×` of `NUM` (00_scope.md R9). -/
def nMul (nm : Numerics) (a b : Scalar) : Option Scalar := chk nm (a * b)

/-- `÷` of `NUM`; a quotient by zero is no number. No rule divides by zero (00_scope.md R11). -/
def nDiv (nm : Numerics) (a b : Scalar) : Option Scalar :=
  if b = 0 then none else chk nm (a / b)

/-- `sqrt` of `NUM` (00_scope.md R9). -/
def nSqrt (nm : Numerics) (a : Scalar) : Option Scalar := chk nm (nm.sqrt a)

/-- `atan` of `NUM` (00_scope.md R9). -/
def nAtan (nm : Numerics) (a : Scalar) : Option Scalar := chk nm (nm.atan a)

/-- `log10` of `NUM` (00_scope.md R9). -/
def nLog10 (nm : Numerics) (a : Scalar) : Option Scalar := chk nm (nm.log10 a)

/-- `frac(t) = t − floor(t)` (42_track.md R147). -/
def nFrac (nm : Numerics) (t : Scalar) : Option Scalar := nSub nm t t.floor

/-- `w = floor(x / m)` and the rest `x − m·w`, each operation one of `NUM` (42_track.md R148, 60_exceptions.md R208). -/
def nDivMod (nm : Numerics) (x m : Scalar) : Option (Int × Scalar) := do
  let q ← nDiv nm x m
  let whole ← nMul nm m q.floor
  let rest ← nSub nm x whole
  pure (q.floor, rest)

/-- The real remainder `x mod m`, `0 ≤ x mod m < m` for `m > 0` (42_track.md R142), computed as `x − m·floor(x / m)`: `NUM`
has no remainder of its own (DESIGN CHOICE, log entry 13). -/
def nMod (nm : Numerics) (x m : Scalar) : Option Scalar := do
  let r ← nDivMod nm x m
  pure r.2

/-- Sum of `f 0 .. f (n-1)` (00_scope.md §8, `Σ`). -/
def nSum (nm : Numerics) (f : Nat → Option Scalar) : Nat → Option Scalar
  | 0 => some 0
  | n + 1 => do
    let acc ← nSum nm f n
    let y ← f n
    nAdd nm acc y

/-- Sum of the values of a list. -/
def nSumList (nm : Numerics) : List Scalar → Option Scalar
  | [] => some 0
  | x :: xs => do
    let acc ← nSumList nm xs
    nAdd nm x acc

/-- `cis(t) = cos2pi(t) + j·sin2pi(t)` (00_scope.md R10). -/
def cis (nm : Numerics) (t : Scalar) : Option Cplx := do
  let c ← chk nm (nm.cos2pi t)
  let s ← chk nm (nm.sin2pi t)
  pure { re := c, im := s }

/-- Complex sum. -/
def cAdd (nm : Numerics) (a b : Cplx) : Option Cplx := do
  let re ← nAdd nm a.re b.re
  let im ← nAdd nm a.im b.im
  pure { re := re, im := im }

/-- Complex product. -/
def cMul (nm : Numerics) (a b : Cplx) : Option Cplx := do
  let rr ← nMul nm a.re b.re
  let ii ← nMul nm a.im b.im
  let ri ← nMul nm a.re b.im
  let ir ← nMul nm a.im b.re
  let re ← nSub nm rr ii
  let im ← nAdd nm ri ir
  pure { re := re, im := im }

/-- A complex value times a chip `±1`. -/
def cChip (nm : Numerics) (a : Cplx) (chip : Int) : Option Cplx := do
  let re ← nMul nm a.re chip
  let im ← nMul nm a.im chip
  pure { re := re, im := im }

/-- `|z|² = Re(z)² + Im(z)²` (00_scope.md §8). -/
def normSq (nm : Numerics) (z : Cplx) : Option Scalar := do
  let r ← nMul nm z.re z.re
  let i ← nMul nm z.im z.im
  nAdd nm r i

/-- Complex sum of `f 0 .. f (n-1)`. -/
def cSum (nm : Numerics) (f : Nat → Option Cplx) : Nat → Option Cplx
  | 0 => some { re := 0, im := 0 }
  | n + 1 => do
    let acc ← cSum nm f n
    let y ← f n
    cAdd nm acc y

/-- `uq16(v) = v / 65536` for an unsigned 32-bit `v` (00_scope.md §8). -/
def uq16 (v : Word) : Scalar := (v.toNat : Rat) / 65536

end Sys2Proof.Machine
end

