-- ==== Sys2Proof/Machine/PrnGen.lean ====
section
/-! DEFINITION. The PRN generator (40_prn.md). It reads no state and writes none (R100), so it is a function (10_state.md R33). -/

namespace Sys2Proof.Machine

/-- The two 10-stage registers; stage `s` of 1..10 is bit `s − 1` (40_prn.md R101). -/
structure Lfsr where
  g1 : BitVec 10
  g2 : BitVec 10
deriving DecidableEq, Repr

/-- Stage `s` of a register, `s` in 1..10 (40_prn.md R101). -/
def stage (g : BitVec 10) (s : Nat) : Bool := g.getLsbD (s - 1)

/-- Both registers start with all ten stages 1 (40_prn.md R101). -/
def Lfsr.start : Lfsr := { g1 := BitVec.allOnes 10, g2 := BitVec.allOnes 10 }

/-- The feedback into stage 1 of G1, polynomial `1 + x³ + x¹⁰` (40_prn.md R101). -/
def feedback1 (g : BitVec 10) : Bool := stage g 3 ^^ stage g 10

/-- The feedback into stage 1 of G2, polynomial `1 + x² + x³ + x⁶ + x⁸ + x⁹ + x¹⁰` (40_prn.md R101). -/
def feedback2 (g : BitVec 10) : Bool :=
  stage g 2 ^^ stage g 3 ^^ stage g 6 ^^ stage g 8 ^^ stage g 9 ^^ stage g 10

/-- One shift of both registers: stage `s` takes stage `s − 1`, stage 1 takes the feedback (40_prn.md R101). -/
def Lfsr.shift (l : Lfsr) : Lfsr :=
  { g1 := l.g1.shiftConcat (feedback1 l.g1), g2 := l.g2.shiftConcat (feedback2 l.g2) }

/-- The registers after `i` shifts from the start. -/
def lfsrAfter : Nat → Lfsr
  | 0 => Lfsr.start
  | i + 1 => (lfsrAfter i).shift

/-- The output bit for a pair of G2 taps, from the registers as they stand (40_prn.md R103). -/
def Lfsr.output (l : Lfsr) (taps : Nat × Nat) : Bool :=
  stage l.g1 10 ^^ stage l.g2 taps.1 ^^ stage l.g2 taps.2

/-- The chip bit `ca(sv)[i]`, read before the `i`-th shift (40_prn.md R103), for a tap table. A code outside SV 1..32 or
a chip outside 0..1022 does not exist (R107) and no rule asks for it: there the bit is free. -/
def caWith (table : List (Nat × Nat)) (sv : BitVec 6) (i : Nat) : Bool :=
  if sv.toNat = 0 ∨ 1023 ≤ i then Config.freeChip sv.toNat i
  else
    match table[sv.toNat - 1]? with
    | some taps => (lfsrAfter i).output taps
    | none => Config.freeChip sv.toNat i

/-- The chip bit `ca(sv)[i]` under the implementation's tap table (40_prn.md R102, R103). -/
def ca (sv : BitVec 6) (i : Nat) : Bool := caWith Config.g2Taps sv i

/-- The sign map: `prn(sv)[i] = 1 − 2·ca(sv)[i]` (40_prn.md R104). -/
def prn (sv : BitVec 6) (i : Nat) : Int := if ca sv i then -1 else 1

/-- The code resampled to `n` samples per period: `cN(sv)[k] = prn(sv)[(k·1023) div N]` (40_prn.md R105). -/
def prnResampled (sv : BitVec 6) (n k : Nat) : Int := prn sv (k * 1023 / n)

end Sys2Proof.Machine
end

