-- ==== Sys2Proof/Machine/Flags.lean ====
section
/-! DEFINITION. Every code, flag and status word the block computes: the code numbers of 10_state.md R25, R28, R30, R39,
STATUS (R24), CHc_STATUS (R31), PRN_DATA (R26), and the configuration check CFG_OK (43_host.md R184). -/

namespace Sys2Proof.Machine

/-- The code CMDSTAT holds in bits 3:0 (10_state.md R25). -/
def CmdStat.code : CmdStat → BitVec 4
  | .ok => 0
  | .illegal => 1
  | .busy => 2
  | .noWindow => 3
  | .chBusy => 4
  | .slotsFull => 5
  | .dupSv => 6
  | .badSeed => 7
  | .notBusy => 8
  | .faulted => 9
  | .chIdle => 10

/-- The number of a channel state (10_state.md R30). -/
def ChState.code : ChState → BitVec 3
  | .idle => 0
  | .acquired => 1
  | .pullIn => 2
  | .locked => 3
  | .unlocked => 4

/-- The number ACQ_RES_STATUS shows (10_state.md R23, R28). -/
def ResStatus.code : ResStatus → BitVec 2
  | .none => 0
  | .ok => 1
  | .failed => 2
  | .cancelled => 3

/-- `kind` of an EVENT record as a number (10_state.md R39). -/
def EventKind.code : EventKind → BitVec 4
  | .acquired => 1
  | .locked => 2
  | .unlocked => 3
  | .error => 4

/-- `stage` of an EVENT record as a number (10_state.md R39). -/
def Stage.code : Stage → BitVec 2
  | .source => 0
  | .acquirer => 1
  | .tracker => 2

/-- `err` of an EVENT record as a number (10_state.md R39). -/
def Err.code : Err → BitVec 4
  | .none => 0
  | .acquisitionFailed => 1
  | .lockLost => 2
  | .sampleSourceOverrun => 3
  | .configInvalid => 4
  | .internalInvariant => 5

/-- The fault code: GYP's exit codes 2 and 4 (60_exceptions.md R201). -/
def FatalKind.code : FatalKind → BitVec 4
  | .configInvalid => 2
  | .internalInvariant => 4

/-- The `err` of a fault's event: `4 if code = 2 else 5` (60_exceptions.md R204). -/
def FatalKind.err : FatalKind → Err
  | .configInvalid => .configInvalid
  | .internalInvariant => .internalInvariant

/-- A channel is active when its state is ACQUIRED, PULL_IN or LOCKED (00_scope.md §9). -/
def ChState.active : ChState → Bool
  | .idle => false
  | .acquired => true
  | .pullIn => true
  | .locked => true
  | .unlocked => false

/-- The channel is active. -/
def Channel.active (c : Channel) : Bool := c.st.active

/-- NACTIVE, the number of active channels (10_state.md R24). -/
def nActive (s : State) : Nat := s.ch.toList.countP Channel.active

/-- FAULT_CODE shows the latched code, and 0 when no fault is set (10_state.md R24). -/
def FaultLatch.shownCode (f : FaultLatch) : BitVec 4 := if f.set then f.code else 0#4

/-- STATUS, computed from the state it mirrors (10_state.md R24). -/
def statusWord (s : State) : Word :=
  0#12 ++ BitVec.ofNat 4 (nActive s) ++ 0#4 ++ s.fault.shownCode ++ 0#1 ++ BitVec.ofBool s.sidxValid ++
    BitVec.ofBool s.fault.set ++ BitVec.ofBool (decide (s.acq.res.status = .ok)) ++ BitVec.ofBool s.acq.done ++
    BitVec.ofBool s.win.valid ++ BitVec.ofBool s.win.capturing ++ BitVec.ofBool s.acq.busy

/-- CMDSTAT: the code in bits 3:0, 0 above (10_state.md R25). -/
def cmdStatWord (s : State) : Word := 0#28 ++ s.cmdStat.code

/-- CHc_STATUS (10_state.md R31). -/
def chStatusWord (c : Channel) : Word :=
  0#17 ++ BitVec.ofBool c.aligned ++ c.sv ++ 0#5 ++ c.st.code

/-- PRN_DATA for a value of PRN_SEL: the chip bit, or INVALID in bit 31 (10_state.md R26). -/
def prnDataWord (sel : Word) : Word :=
  let sv : BitVec 6 := sel.extractLsb' 16 6
  let i := (sel.extractLsb' 0 10).toNat
  if 1 ≤ sv.toNat ∧ sv.toNat ≤ 32 ∧ i ≤ 1022 then
    (if prn sv i = 1 then 0x00000000#32 else 0x00000001#32)
  else 0x80000000#32

/-- A window of `samples` fits a window memory of the given capacity (43_host.md R184 condition 8). -/
def fitsDepth (depth : Option Nat) (samples : Nat) : Bool :=
  match depth with
  | none => true
  | some d => decide (samples ≤ d)

/-- CFG_OK for a window memory of the given capacity: conditions 1 to 8 in order (43_host.md R184). -/
def cfgOkWith (depth : Option Nat) (r : Regs) : Bool :=
  decide (2046000 ≤ r.sampleRate.toNat) &&
  decide (r.sampleRate.toNat % 1000 = 0) &&
  decide (r.sampleFmt.toNat ≤ 2) &&
  decide (1 ≤ r.acqDoppStep.toNat) &&
  (decide (r.acqDoppRange.toNat ≤ 0x7FFFFFFF) && decide (r.acqDoppRangeCold.toNat ≤ 0x7FFFFFFF)) &&
  (decide (1 ≤ r.acqK.toNat) && decide (r.acqK.toNat ≤ 10000)) &&
  (decide (1 ≤ r.maxTracked.toNat) && decide (r.maxTracked.toNat ≤ 10)) &&
  fitsDepth depth (r.acqK.toNat * (r.sampleRate.toNat / 1000))

/-- CFG_OK of this implementation (43_host.md R184). -/
def cfgOk (r : Regs) : Bool := cfgOkWith Config.winDepth r

end Sys2Proof.Machine
end

