-- ==== Sys2Proof/Machine/Ops.lean ====
section
/-! DEFINITION. The named operations over the state: the window memory, the output ports, refusing a command, raising a
fault (the block's one kind of exception, 60_exceptions.md R200, R204), leaving the fault state (SRESET and hardware
reset, R207), and the register file. -/

namespace Sys2Proof.Machine

/-! ### Window memory -/

/-- The sample at index `i` of the window memory, where one has been written (10_state.md R27). -/
def WinMem.read : WinMem → Nat → Option Cplx
  | [], _ => none
  | (j, x) :: rest, i => if i = j then some x else WinMem.read rest i

/-- Write the sample at index `i`, keeping the indices strictly rising (10_state.md R27). -/
def WinMem.write : WinMem → Nat → Cplx → WinMem
  | [], i, x => [(i, x)]
  | (j, y) :: rest, i, x =>
    if i < j then (i, x) :: (j, y) :: rest
    else if i = j then (i, x) :: rest
    else (j, y) :: WinMem.write rest i x

/-- The canonical form: indices strictly rising. -/
def WinMem.wf : WinMem → Bool
  | [] => true
  | [_] => true
  | (i, _) :: (j, y) :: rest => decide (i < j) && WinMem.wf ((j, y) :: rest)

/-- `WIN.data[p]`; a cell no capture has written holds a free value (93_implementation_defined.md U1). -/
def Win.sampleAt (w : Win) (p : Nat) : Cplx :=
  match w.data.read p with
  | some x => x
  | none => Config.freeSample p

/-! ### Output ports (43_host.md R191) -/

/-- `emit PROMPT(..)` for each record, in order. -/
def State.emitPrompts (s : State) (ps : List Prompt) : State := { s with prompts := s.prompts ++ ps }

/-- `emit REPORT(r)`. -/
def State.emitReport (s : State) (r : Report) : State := { s with reports := s.reports ++ [r] }

/-- `emit EVENT(..)` for each record, in order. -/
def State.emitEvents (s : State) (es : List Event) : State := { s with events := s.events ++ es }

/-! ### Outcome of a command -/

/-- `refuse(code)`: CMDSTAT gets the code, nothing else changes, no record is emitted (60_exceptions.md R203). -/
def refuse (code : CmdStat) (s : State) : State := { s with cmdStat := code }

/-- `CMDSTAT <- 0`, the end of a command that passed all its checks (60_exceptions.md R203). -/
def accept (s : State) : State := { s with cmdStat := .ok }

/-! ### Faults -/

/-- The latch keeps the first fault (10_state.md R35). -/
def FaultLatch.raise (f : FaultLatch) (code : BitVec 4) : FaultLatch :=
  if f.set then f else { set := true, code := code }

/-- The EVENT record of a fault (60_exceptions.md R204). -/
def faultEvent (k : FatalKind) (sv : BitVec 6) (stage : Stage) (t : Index) : Event :=
  { kind := .error, svId := sv, stage := stage, err := k.err, t := t }

/-- `raise Fault(code)` by an agent that is no command, with the record's `sv_id`, `stage` and `t` by the raiser
(60_exceptions.md R204). -/
def raiseFault (k : FatalKind) (sv : BitVec 6) (stage : Stage) (t : Index) (s : State) : State :=
  { s with
    fault := s.fault.raise k.code
    events := s.events ++ [faultEvent k sv stage t] }

/-- `raise Fault(code)` by a command: the latch, CMDSTAT 9, and the event stamped `SIDX` (60_exceptions.md R204). -/
def raiseFaultCmd (k : FatalKind) (sv : BitVec 6) (stage : Stage) (s : State) : State :=
  refuse .faulted (raiseFault k sv stage s.sidx s)

/-! ### Reset -/

/-- Every piece of state of 10_state.md R40 at its reset value, CMDSTAT 0, the traces kept (43_host.md R186,
70_reset_and_hazards.md R233). The model's own fields, which are no state of the block, are kept. -/
def softReset (s : State) : State :=
  { State.reset with
    prompts := s.prompts
    reports := s.reports
    events := s.events
    inputs := s.inputs
    hostResp := s.hostResp
    freeCount := s.freeCount }

/-- The reset input: a new run, the traces empty (70_reset_and_hazards.md R230). It is outside the step relation (R233),
so no step calls it; what the agents will do next is not the block's and is kept. -/
def hardwareReset (s : State) : State :=
  { State.reset with inputs := s.inputs, freeCount := s.freeCount }

/-! ### Registers -/

/-- Access kinds (10_state.md R23). -/
inductive Access where
  | ro | wo | rw
deriving DecidableEq, Repr

/-- The byte offset of a register (10_state.md R23). -/
def RegName.offset : RegName → Nat
  | .id => 0x00
  | .cmd => 0x04
  | .cmdStat => 0x08
  | .status => 0x0C
  | .sampleRate => 0x10
  | .sampleFmt => 0x14
  | .centerFreq => 0x18
  | .acqDoppRange => 0x1C
  | .acqDoppRangeCold => 0x20
  | .acqDoppStep => 0x24
  | .acqThresh => 0x28
  | .acqK => 0x2C
  | .maxTracked => 0x30
  | .pllBw => 0x34
  | .dllBw => 0x38
  | .lockThresh => 0x3C
  | .seedDoppler => 0x40
  | .seedCphase => 0x44
  | .seedAidxLo => 0x48
  | .seedAidxHi => 0x4C
  | .sidxLo => 0x50
  | .sidxHi => 0x54
  | .prnSel => 0x58
  | .prnData => 0x5C
  | .acqResStatus => 0x60
  | .acqResSv => 0x64
  | .acqResDoppler => 0x68
  | .acqResCphase => 0x6C
  | .acqResAidxLo => 0x70
  | .acqResAidxHi => 0x74
  | .winStartLo => 0x78
  | .winStartHi => 0x7C
  | .chStatus c => 0x80 + 8 * c.val
  | .chEpochs c => 0x84 + 8 * c.val

/-- The registers below the channel blocks, in the order of the map (10_state.md R23). -/
def scalarRegs : List RegName :=
  [.id, .cmd, .cmdStat, .status, .sampleRate, .sampleFmt, .centerFreq, .acqDoppRange, .acqDoppRangeCold, .acqDoppStep,
   .acqThresh, .acqK, .maxTracked, .pllBw, .dllBw, .lockThresh, .seedDoppler, .seedCphase, .seedAidxLo, .seedAidxHi,
   .sidxLo, .sidxHi, .prnSel, .prnData, .acqResStatus, .acqResSv, .acqResDoppler, .acqResCphase, .acqResAidxLo,
   .acqResAidxHi, .winStartLo, .winStartHi]

/-- The whole map (10_state.md R23, 20_memory.md R65). -/
def allRegs : List RegName :=
  scalarRegs ++ (List.finRange nch).flatMap fun c => [.chStatus c, .chEpochs c]

/-- The register at a byte offset; none at an unmapped or misaligned one (20_memory.md R63, R65, 43_host.md R182). -/
def regAt (off : Nat) : Option RegName := allRegs.find? fun r => r.offset == off

/-- How the host may access a register (10_state.md R23). -/
def RegName.access : RegName → Access
  | .cmd => .wo
  | .sampleRate | .sampleFmt | .centerFreq | .acqDoppRange | .acqDoppRangeCold | .acqDoppStep | .acqThresh | .acqK
  | .maxTracked | .pllBw | .dllBw | .lockThresh | .seedDoppler | .seedCphase | .seedAidxLo | .seedAidxHi | .prnSel => .rw
  | .id | .cmdStat | .status | .sidxLo | .sidxHi | .prnData | .acqResStatus | .acqResSv | .acqResDoppler | .acqResCphase
  | .acqResAidxLo | .acqResAidxHi | .winStartLo | .winStartHi | .chStatus _ | .chEpochs _ => .ro

/-- `writable_mask` of a read-write register (43_host.md R181). -/
def RegName.writableMask : RegName → Word
  | .sampleFmt => 0x00000003#32
  | .prnSel => 0x003F03FF#32
  | _ => 0xFFFFFFFF#32

/-- The low word of a 64-bit quantity, at the lower offset (20_memory.md R61). -/
def lowWord (x : Index) : Word := x.extractLsb' 0 32

/-- The high word of a 64-bit quantity (20_memory.md R61). -/
def highWord (x : Index) : Word := x.extractLsb' 32 32

/-- The value a read of a register returns (43_host.md R180, 10_state.md R23 to R26, R28, R31, 20_memory.md R66). -/
def regValue (s : State) : RegName → Word
  | .id => 0x47595037#32
  | .cmd => 0#32
  | .cmdStat => cmdStatWord s
  | .status => statusWord s
  | .sampleRate => s.regs.sampleRate
  | .sampleFmt => s.regs.sampleFmt
  | .centerFreq => s.regs.centerFreq
  | .acqDoppRange => s.regs.acqDoppRange
  | .acqDoppRangeCold => s.regs.acqDoppRangeCold
  | .acqDoppStep => s.regs.acqDoppStep
  | .acqThresh => s.regs.acqThresh
  | .acqK => s.regs.acqK
  | .maxTracked => s.regs.maxTracked
  | .pllBw => s.regs.pllBw
  | .dllBw => s.regs.dllBw
  | .lockThresh => s.regs.lockThresh
  | .seedDoppler => s.regs.seedDoppler
  | .seedCphase => s.regs.seedCphase
  | .seedAidxLo => s.regs.seedAidxLo
  | .seedAidxHi => s.regs.seedAidxHi
  | .sidxLo => lowWord s.sidx
  | .sidxHi => s.sidxHiLatch
  | .prnSel => s.regs.prnSel
  | .prnData => prnDataWord s.regs.prnSel
  | .acqResStatus => s.acq.res.status.code.setWidth 32
  | .acqResSv => s.acq.res.sv.setWidth 32
  | .acqResDoppler => s.acq.res.doppler
  | .acqResCphase => s.acq.res.cphase
  | .acqResAidxLo => lowWord s.acq.res.aidx
  | .acqResAidxHi => highWord s.acq.res.aidx
  | .winStartLo => lowWord s.win.start
  | .winStartHi => highWord s.win.start
  | .chStatus c => chStatusWord s.ch[c]
  | .chEpochs c => s.ch[c].epochs

/-- `REG[off] <- v & writable_mask(off)` for a read-write register (43_host.md R181); no other register stores. -/
def Regs.store (r : Regs) (name : RegName) (v : Word) : Regs :=
  let w := v &&& name.writableMask
  match name with
  | .sampleRate => { r with sampleRate := w }
  | .sampleFmt => { r with sampleFmt := w }
  | .centerFreq => { r with centerFreq := w }
  | .acqDoppRange => { r with acqDoppRange := w }
  | .acqDoppRangeCold => { r with acqDoppRangeCold := w }
  | .acqDoppStep => { r with acqDoppStep := w }
  | .acqThresh => { r with acqThresh := w }
  | .acqK => { r with acqK := w }
  | .maxTracked => { r with maxTracked := w }
  | .pllBw => { r with pllBw := w }
  | .dllBw => { r with dllBw := w }
  | .lockThresh => { r with lockThresh := w }
  | .seedDoppler => { r with seedDoppler := w }
  | .seedCphase => { r with seedCphase := w }
  | .seedAidxLo => { r with seedAidxLo := w }
  | .seedAidxHi => { r with seedAidxHi := w }
  | .prnSel => { r with prnSel := w }
  | .id | .cmd | .cmdStat | .status | .sidxLo | .sidxHi | .prnData | .acqResStatus | .acqResSv | .acqResDoppler
  | .acqResCphase | .acqResAidxLo | .acqResAidxHi | .winStartLo | .winStartHi | .chStatus _ | .chEpochs _ => r

/-- Which register an access of this offset and width reaches: only a 32-bit access at a mapped multiple of 4 reaches
one (20_memory.md R63, 43_host.md R182). -/
def regOfAccess (off width : Nat) : Option RegName :=
  if width = 32 then regAt off else none

/-- A bus error: no state of the block changes (43_host.md R182). -/
def busError (s : State) : State := { s with hostResp := .busError }

/-- `RegRead(off)`: the register's value as of this step; a read of SIDX_LO also latches SIDX_HI (43_host.md R180,
20_memory.md R64, R66). -/
def regRead (off width : Nat) (s : State) : State :=
  match regOfAccess off width with
  | none => busError s
  | some r =>
    { s with
      hostResp := .data (regValue s r)
      sidxHiLatch := if r = .sidxLo then highWord s.sidx else s.sidxHiLatch }

/-- `RegWrite(off, v)` to any register but CMD: a read-write register stores the value under its mask, whatever the
value, any other is a bus error (43_host.md R181). -/
def regWrite (r : RegName) (v : Word) (s : State) : State :=
  if r.access = .rw then { s with regs := s.regs.store r v, hostResp := .done } else busError s

end Sys2Proof.Machine
end

