-- ==== Sys2Proof/Machine/Operands.lean ====
section
/-! DEFINITION. The operands of the commands: the fields of the word (30_encoding.md R82) and the register values a command
latches when it executes (20_memory.md R70, 70_reset_and_hazards.md R240). -/

namespace Sys2Proof.Machine

/-- The channel a `CH` field names, where it is 0..9 (30_encoding.md R81, R84). -/
def chanOf (ch : BitVec 4) : Option Chan :=
  if h : ch.toNat < nch then some ⟨ch.toNat, h⟩ else none

/-- `N`, the samples of a 1 ms block at the configured rate (00_scope.md R6). -/
def samplesPerBlock (r : Regs) : Nat := r.sampleRate.toNat / 1000

/-- The Doppler range a search latches: the cold one if `COLD` is 1 (41_acquire.md R112). -/
def dopplerRange (r : Regs) (cold : Bool) : Nat :=
  if cold then r.acqDoppRangeCold.toNat else r.acqDoppRange.toNat

/-- The seed Doppler in Hz, `sext_32` (42_track.md R140). -/
def seedDoppler (r : Regs) : Int := r.seedDoppler.toInt

/-- The seed's `acquired_at_sample_index`: HI `++` LO (42_track.md R140, 20_memory.md R66). -/
def seedAidx (r : Regs) : Index := r.seedAidxHi ++ r.seedAidxLo

/-- `FCHIP`, chips per second (00_scope.md R6). -/
def fchip : Scalar := 1023000

/-- `FL1` of the aiding formula, Hz (00_scope.md R6; 43_host.md R187: a literal, whatever CENTER_FREQ holds). -/
def fl1 : Scalar := 1575420000

/-- The code length in chips (00_scope.md R6). -/
def lcode : Scalar := 1023

/-- `T`, the nominal epoch in seconds (42_track.md, constants). -/
def tcode : Scalar := 1 / 1000

/-- `2·ZETA`, with ζ = 0.707 the literal (42_track.md R154). -/
def twoZeta : Scalar := 1414 / 1000

/-- The carrier-aided chipping rate `FCHIP · (1 + f / FL1)` (42_track.md R140, R157). -/
def aidedRate (f : Scalar) : Scalar := fchip * (1 + f / fl1)

/-- Another channel than `c` is active on `sv` (42_track.md R140, DUP_SV). -/
def svTrackedElsewhere (s : State) (c : Chan) (sv : BitVec 6) : Bool :=
  (List.finRange nch).any fun d => decide (d ≠ c) && s.ch[d].active && decide (s.ch[d].sv = sv)

end Sys2Proof.Machine
end

