-- ==== Sys2Proof/Machine/Acquire.lean ====
section
/-! DEFINITION. Acquisition (41_acquire.md): the commands WCAP, ACQ and ACQABORT, window capture, the search and `AcqFinish`. -/

namespace Sys2Proof.Machine

/-! ### Commands -/

/-- The window memory as WCAP leaves it (41_acquire.md R110): the rate and the block count latched, the capture running,
`start` and the contents as they were. -/
def Win.startCapture (w : Win) (r : Regs) : Win :=
  { w with
    fs := r.sampleRate.toNat
    n := samplesPerBlock r
    k := r.acqK.toNat
    count := 0
    valid := false
    capturing := true }

/-- `WCAP` (41_acquire.md R110). -/
def execWcap (s : State) : StepResult :=
  if s.fault.set then .next (refuse .faulted s)
  else if !cfgOk s.regs then .next (raiseFaultCmd .configInvalid 0#6 .acquirer s)
  else if s.acq.busy || s.win.capturing then .next (refuse .busy s)
  else .next (accept { s with win := s.win.startCapture s.regs })

/-- The engine as ACQ leaves it (41_acquire.md R112): operands latched, busy, the other result registers as they were. -/
def Acq.startSearch (a : Acq) (r : Regs) (cold : Bool) (sv : BitVec 6) : Acq :=
  { a with
    sv := sv
    range := dopplerRange r cold
    step := r.acqDoppStep.toNat
    thr := uq16 r.acqThresh
    busy := true
    done := false
    res := { a.res with status := .none } }

/-- `ACQ sv[, COLD]` (41_acquire.md R112). -/
def execAcq (cold : Bool) (sv : BitVec 6) (s : State) : StepResult :=
  if s.fault.set then .next (refuse .faulted s)
  else if !svLegal sv then .next (refuse .illegal s)
  else if !cfgOk s.regs then .next (raiseFaultCmd .configInvalid sv .acquirer s)
  else if s.acq.busy then .next (refuse .busy s)
  else if !s.win.valid then .next (refuse .noWindow s)
  else .next (accept { s with acq := s.acq.startSearch s.regs cold sv })

/-- A capture given up: by ACQABORT (41_acquire.md R113) or by a gap (R111). -/
def Win.abandon (w : Win) : Win := { w with capturing := false, valid := false, count := 0 }

/-- The engine after a running search is cancelled (41_acquire.md R113). -/
def Acq.cancel (a : Acq) : Acq :=
  { a with busy := false, done := true, res := { a.res with status := .cancelled } }

/-- `ACQABORT` (41_acquire.md R113). -/
def execAcqabort (s : State) : StepResult :=
  if s.fault.set then .next (refuse .faulted s)
  else if s.acq.busy then .next (accept { s with acq := s.acq.cancel })
  else if s.win.capturing then .next (accept { s with win := s.win.abandon })
  else .next (refuse .notBusy s)

/-! ### Capture -/

/-- Capture of an accepted sample (41_acquire.md R111). -/
def Win.capture (w : Win) (n : Index) (x : Cplx) : Win :=
  if w.capturing then
    let full := decide (w.count + 1 = w.k * w.n)
    { w with
      start := if w.count = 0 then n else w.start
      data := w.data.write w.count x
      count := w.count + 1
      capturing := !full
      valid := if full then true else w.valid }
  else w

/-! ### The search (R115 to R121) -/

/-- `kmax = R div s` (41_acquire.md R115). -/
def kmax (range step : Nat) : Nat := range / step

/-- `NB = 2·kmax + 1` (41_acquire.md R115). -/
def binCount (range step : Nat) : Nat := 2 * kmax range step + 1

/-- `f[b] = (b − kmax) · s` Hz (41_acquire.md R115). -/
def binFreq (range step b : Nat) : Int := ((b : Int) - (kmax range step : Int)) * (step : Int)

/-- `xm[b][p] = WIN.data[p] · cis(−f[b] · p / WIN.Fs)` (41_acquire.md R116). -/
def mixed (nm : Numerics) (w : Win) (f : Int) (p : Nat) : Option Cplx := do
  let t ← nDiv nm ((-(f * (p : Int)) : Int) : Scalar) (w.fs : Scalar)
  let c ← cis nm t
  cMul nm (w.sampleAt p) c

/-- `r[b][k][m]`, the circular correlation of one block with the code (41_acquire.md R117). -/
def correlation (nm : Numerics) (w : Win) (code : Nat → Int) (f : Int) (k m : Nat) : Option Cplx :=
  cSum nm (fun n => do
    let x ← mixed nm w f (k * w.n + (n + m) % w.n)
    cChip nm x (code n)) w.n

/-- `P[b][m] = Σ_k |r[b][k][m]|²` (41_acquire.md R118). -/
def power (nm : Numerics) (w : Win) (code : Nat → Int) (f : Int) (m : Nat) : Option Scalar :=
  nSum nm (fun k => do
    let r ← correlation nm w code f k m
    normSq nm r) w.k

/-- The array `P`, one row per Doppler bin, one entry per code phase (10_state.md R29, 41_acquire.md R118). -/
def powerGrid (nm : Numerics) (w : Win) (code : Nat → Int) (range step : Nat) : Option (List (List Scalar)) :=
  (List.range (binCount range step)).mapM fun b =>
    (List.range w.n).mapM fun m => power nm w code (binFreq range step b) m

/-- One entry of the array with its place. -/
structure Cell where
  bin : Nat
  phase : Nat
  val : Scalar
deriving DecidableEq, Repr

/-- The entries of an array, bin ascending, then code phase ascending (41_acquire.md R119). -/
def gridCells (p : List (List Scalar)) : List Cell :=
  p.zipIdx.flatMap fun row => row.1.zipIdx.map fun v => { bin := row.2, phase := v.2, val := v.1 }

/-- The later of two entries only where it is strictly greater. -/
def Cell.better (best x : Cell) : Cell := if best.val < x.val then x else best

/-- The first entry at which the greatest value stands (41_acquire.md R119). -/
def firstMax : List Cell → Option Cell
  | [] => none
  | c :: cs => some (cs.foldl Cell.better c)

/-- `second`: the greatest value over all bins but the peak's, 0 where there is no other bin (41_acquire.md R120). -/
def secondPeak (cells : List Cell) (bin : Nat) : Scalar :=
  match firstMax (cells.filter fun c => decide (c.bin ≠ bin)) with
  | some c => c.val
  | none => 0

/-- `peak_snr_db` where it is defined (41_acquire.md R121); the outer `none` is a numeric exception. -/
def snrDb (nm : Numerics) (peak second : Scalar) : Option (Option Scalar) :=
  if 0 < second ∧ 0 < peak then do
    let ratio ← nDiv nm peak second
    let l ← nLog10 nm ratio
    let d ← nMul nm 10 l
    pure (some d)
  else some none

/-- What a search finds (41_acquire.md R119 to R121). -/
structure SearchResult where
  cell : Cell
  second : Scalar
  ok : Bool
  snr : Option Scalar
deriving DecidableEq, Repr

/-- Peak, second peak and decision over an array (41_acquire.md R119 to R121). An array without entries has no peak:
no number (log entry 9; a window WCAP started has `N ≥ 2046`). -/
def decideSearch (nm : Numerics) (thr : Scalar) (p : List (List Scalar)) : Option SearchResult := do
  let cells := gridCells p
  let best ← firstMax cells
  let second := secondPeak cells best.bin
  let bound ← nMul nm thr second
  let snr ← snrDb nm best.val second
  pure { cell := best, second := second, ok := decide (bound < best.val), snr := snr }

/-- The whole search over the window, with the engine's latches (41_acquire.md R114 to R121). -/
def search (nm : Numerics) (w : Win) (a : Acq) : Option SearchResult := do
  let p ← powerGrid nm w (prnResampled a.sv w.n) a.range a.step
  decideSearch nm a.thr p

/-! ### AcqFinish -/

/-- The REPORT of a search; `peak_snr_db` without a defined value is free (41_acquire.md R114, 93_implementation_defined.md U3). -/
def searchReport (s : State) (o : SearchResult) : Report :=
  { ok := o.ok
    svId := s.acq.sv
    dopplerHz := binFreq s.acq.range s.acq.step o.cell.bin
    codePhase := o.cell.phase
    peak := o.cell.val
    second := o.second
    peakSnrDb := o.snr.getD (Config.freeScalar s.freeCount)
    acquiredAt := s.win.start }

/-- The EVENT of a search (41_acquire.md R114). -/
def searchEvent (s : State) (o : SearchResult) : Event :=
  { kind := if o.ok then .acquired else .error
    svId := s.acq.sv
    stage := .acquirer
    err := if o.ok then .none else .acquisitionFailed
    t := s.win.start }

/-- The engine after a search with a result (41_acquire.md R114). -/
def Acq.finish (a : Acq) (start : Index) (o : SearchResult) : Acq :=
  { a with
    busy := false
    done := true
    res :=
      { status := if o.ok then .ok else .failed
        sv := a.sv
        doppler := BitVec.ofInt 32 (binFreq a.range a.step o.cell.bin)
        cphase := BitVec.ofNat 32 o.cell.phase
        aidx := start } }

/-- `AcqFinish` is enabled (41_acquire.md R114). -/
def acqFinishEnabled (s : State) : Bool := s.acq.busy && !s.fault.set

/-- `AcqFinish` where the search has a result: result registers, REPORT, then one EVENT (41_acquire.md R114). -/
def finishSearch (o : SearchResult) (s : State) : State :=
  { ((s.emitReport (searchReport s o)).emitEvents [searchEvent s o]) with
    acq := s.acq.finish s.win.start o
    freeCount := s.freeCount + (if o.snr.isSome then 0 else 1) }

/-- `AcqFinish` where an operation of `NUM` has no number: `raise Fault(4)`, the result registers unspecified, the rest as
the step left it (60_exceptions.md R204, R208; 93_implementation_defined.md U13). -/
def failSearch (s : State) : State :=
  let s' := raiseFault .internalInvariant s.acq.sv .acquirer s.win.start s
  { s' with
    acq := { s.acq with res := Config.freeResult s.freeCount }
    freeCount := s.freeCount + 1 }

/-- The engine's turn: `AcqFinish` where it is enabled, nothing where it is not (41_acquire.md R114). -/
def acqFinish (nm : Numerics) (s : State) : State :=
  if acqFinishEnabled s then
    match search nm s.win s.acq with
    | some o => finishSearch o s
    | none => failSearch s
  else s

end Sys2Proof.Machine
end

