-- ==== Sys2Proof/Machine/Track.lean ====
section
/-! DEFINITION. Tracking (42_track.md): the commands TSEED and TSTOP, the channel step of an accepted sample and the dump at
the end of a code epoch. -/

namespace Sys2Proof.Machine

/-! ### Commands -/

/-- The channel record TSEED writes (42_track.md R140). -/
def seedChannel (nm : Numerics) (r : Regs) (sv : BitVec 6) : Channel where
  st := .acquired
  sv := sv
  fs := r.sampleRate.toNat
  wn := 2 * nm.pi * uq16 r.pllBw
  gdll := 2 * uq16 r.dllBw
  thr := uq16 r.lockThresh
  fSeed := seedDoppler r
  cpSeed := r.seedCphase.toNat
  aidx := seedAidx r
  phasePending := true
  theta := 0
  f := (seedDoppler r : Scalar)
  pint := 0
  cp := 0
  rate := aidedRate (seedDoppler r : Scalar)
  ie := 0
  qe := 0
  ip := 0
  qp := 0
  il := 0
  ql := 0
  aligned := false
  estart := 0#64
  pullCnt := 0#9
  belowCnt := 0#11
  epochs := 0#32
  pbuf := []

/-- Write the record of one channel. -/
def State.setChan (s : State) (c : Chan) (C : Channel) : State := { s with ch := s.ch.set c C }

/-- TSEED's checks after decoding and configuration, in their order, then its effect (42_track.md R140). -/
def seedChecked (nm : Numerics) (c : Chan) (sv : BitVec 6) (s : State) : State :=
  if s.ch[c].active then refuse .chBusy s
  else if s.regs.maxTracked.toNat ≤ nActive s then refuse .slotsFull s
  else if svTrackedElsewhere s c sv then refuse .dupSv s
  else if samplesPerBlock s.regs ≤ s.regs.seedCphase.toNat then refuse .badSeed s
  else accept (s.setChan c (seedChannel nm s.regs sv))

/-- `TSEED ch, sv` (42_track.md R140). -/
def execTseed (ch : BitVec 4) (sv : BitVec 6) (s : State) : StepResult :=
  if s.fault.set then .next (refuse .faulted s)
  else
    match chanOf ch with
    | none => .next (refuse .illegal s)
    | some c =>
      if !svLegal sv then .next (refuse .illegal s)
      else if !cfgOk s.regs then .next (raiseFaultCmd .configInvalid sv .tracker s)
      else .next (seedChecked Config.num c sv s)

/-- `TSTOP ch` (42_track.md R141). -/
def execTstop (ch : BitVec 4) (s : State) : StepResult :=
  if s.fault.set then .next (refuse .faulted s)
  else
    match chanOf ch with
    | none => .next (refuse .illegal s)
    | some c =>
      if !s.ch[c].active then .next (refuse .chIdle s)
      else .next (accept (s.setChan c { s.ch[c] with st := .idle }))

/-! ### Per-sample operation -/

/-- The initial code phase, fixed by the first sample after TSEED (42_track.md R142). -/
def fixPhase (nm : Numerics) (n : Index) (C : Channel) : Option Channel :=
  if C.phasePending then do
    let d : Int := (n.toNat : Int) - (C.aidx.toNat : Int) - (C.cpSeed : Int)
    let chips ← nMul nm (d : Scalar) C.rate
    let adv ← nDiv nm chips (C.fs : Scalar)
    let cp ← nMod nm adv lcode
    pure { C with cp := cp, estart := n, phasePending := false }
  else some C

/-- The code's chip at a chip position: `c[floor(x) mod 1023]`, the remainder not negative (42_track.md R149). -/
def chipAt (sv : BitVec 6) (x : Scalar) : Int := prn sv (x.floor % 1023).toNat

/-- Carrier wipe-off: `y = x · cis(−theta)` (42_track.md R147). -/
def wipeOff (nm : Numerics) (C : Channel) (x : Cplx) : Option Cplx := do
  let c ← cis nm (-C.theta)
  cMul nm x c

/-- One accumulator: `acc += v · chip` (42_track.md R150). -/
def accumulate (nm : Numerics) (acc v : Scalar) (chip : Int) : Option Scalar := do
  let p ← nMul nm v chip
  nAdd nm acc p

/-- The six accumulators take the wiped sample against the early, prompt and late chips (42_track.md R149, R150). -/
def integrate (nm : Numerics) (C : Channel) (y : Cplx) : Option Channel := do
  let early ← nAdd nm C.cp (1 / 2)
  let late ← nSub nm C.cp (1 / 2)
  let e := chipAt C.sv early
  let p := chipAt C.sv C.cp
  let l := chipAt C.sv late
  let ie ← accumulate nm C.ie y.re e
  let qe ← accumulate nm C.qe y.im e
  let ip ← accumulate nm C.ip y.re p
  let qp ← accumulate nm C.qp y.im p
  let il ← accumulate nm C.il y.re l
  let ql ← accumulate nm C.ql y.im l
  pure { C with ie := ie, qe := qe, ip := ip, qp := qp, il := il, ql := ql }

/-- The carrier NCO's advance: `theta <- frac(theta + f / Fs)` (42_track.md R147). -/
def advanceCarrier (nm : Numerics) (C : Channel) : Option Channel := do
  let step ← nDiv nm C.f (C.fs : Scalar)
  let sum ← nAdd nm C.theta step
  let theta ← nFrac nm sum
  pure { C with theta := theta }

/-- The code NCO's advance: the record with `cp` back in range, and how often the code wrapped (42_track.md R148). -/
def advanceCode (nm : Numerics) (C : Channel) : Option (Channel × Int) := do
  let step ← nDiv nm C.rate (C.fs : Scalar)
  let sum ← nAdd nm C.cp step
  let r ← nDivMod nm sum lcode
  pure ({ C with cp := r.2 }, r.1)

/-- The channel step up to the dump: the record, and the wraps of the code phase (42_track.md R151). -/
def trackSample (nm : Numerics) (n : Index) (x : Cplx) (C : Channel) : Option (Channel × Int) := do
  let C1 ← fixPhase nm n C
  let y ← wipeOff nm C1 x
  let C2 ← integrate nm C1 y
  let C3 ← advanceCarrier nm C2
  advanceCode nm C3

/-! ### The dump -/

/-- The PROMPT record of an epoch (42_track.md R152). -/
def promptOf (C : Channel) : Prompt :=
  { svId := C.sv, tRx := C.estart, i := C.ip, q := C.qp }

/-- Depth of the prompt buffer (00_scope.md R6 `PBUF_DEPTH`). -/
def pbufDepth : Nat := 1000

/-- Push onto the prompt buffer; a full one drops its oldest entry (10_state.md R32). -/
def pushPrompt (buf : List Cplx) (x : Cplx) : List Cplx :=
  let b := buf ++ [x]
  b.drop (b.length - pbufDepth)

/-- The channel after the PROMPT is emitted: pushed and counted (42_track.md R152). -/
def countPrompt (C : Channel) : Channel :=
  { C with pbuf := pushPrompt C.pbuf { re := C.ip, im := C.qp }, epochs := C.epochs + 1#32 }

/-- The phase discriminator (42_track.md R153). -/
def phaseError (nm : Numerics) (i q : Scalar) : Option Scalar :=
  if i ≠ 0 then do
    let t ← nDiv nm q i
    nAtan nm t
  else if 0 < q then nDiv nm nm.pi 2
  else if q < 0 then nDiv nm (-nm.pi) 2
  else some 0

/-- The PLL loop filter and the carrier NCO's new frequency (42_track.md R154, R155). -/
def carrierLoop (nm : Numerics) (C : Channel) : Option Channel := do
  let e ← phaseError nm C.ip C.qp
  let wn2 ← nMul nm C.wn C.wn
  let g ← nMul nm wn2 tcode
  let dint ← nMul nm g e
  let pint ← nAdd nm C.pint dint
  let z ← nMul nm twoZeta C.wn
  let prop ← nMul nm z e
  let wCorr ← nAdd nm pint prop
  let twoPi ← nMul nm 2 nm.pi
  let df ← nDiv nm wCorr twoPi
  let f ← nAdd nm (C.fSeed : Scalar) df
  pure { C with pint := pint, f := f }

/-- The magnitude `√(I² + Q²)` of a replica's correlator (42_track.md R156). -/
def magnitude (nm : Numerics) (i q : Scalar) : Option Scalar := do
  let m ← normSq nm { re := i, im := q }
  nSqrt nm m

/-- The code discriminator `(E − L)/(E + L)`, 0 where `E + L = 0` (42_track.md R156). -/
def codeError (nm : Numerics) (C : Channel) : Option Scalar := do
  let e ← magnitude nm C.ie C.qe
  let l ← magnitude nm C.il C.ql
  let sum ← nAdd nm e l
  if 0 < sum then do
    let diff ← nSub nm e l
    nDiv nm diff sum
  else some 0

/-- The code NCO's new rate, carrier-aided by the `f` just written (42_track.md R157). -/
def codeLoop (nm : Numerics) (C : Channel) : Option Channel := do
  let d ← codeError nm C
  let rel ← nDiv nm C.f fl1
  let one ← nAdd nm 1 rel
  let aided ← nMul nm fchip one
  let corr ← nMul nm C.gdll d
  let rate ← nAdd nm aided corr
  pure { C with rate := rate }

/-- How many entries the lock detector reads (42_track.md R160). -/
def lockWindow : Nat := 200

/-- The newest entries of the prompt buffer (42_track.md R160). -/
def newest (buf : List Cplx) : List Cplx := buf.drop (buf.length - lockWindow)

/-- The lock statistic is below the threshold: `SI² < 200 · thr · SQ2` (42_track.md R160). -/
def lockBelow (nm : Numerics) (thr : Scalar) (buf : List Cplx) : Option Bool := do
  let w := newest buf
  let si ← nSumList nm (w.map Cplx.re)
  let squares ← w.mapM fun x => nMul nm x.im x.im
  let sq2 ← nSumList nm squares
  let si2 ← nMul nm si si
  let a ← nMul nm 200 thr
  let b ← nMul nm a sq2
  pure (decide (si2 < b))

/-- An EVENT record of the tracker (10_state.md R39). -/
def trackerEvent (kind : EventKind) (err : Err) (sv : BitVec 6) (t : Index) : Event :=
  { kind := kind, svId := sv, stage := .tracker, err := err, t := t }

/-- Pull-in: the 500th dump locks (42_track.md R159). -/
def pullInDump (n : Index) (C : Channel) : Channel × List Event :=
  let cnt := C.pullCnt + 1#9
  if cnt = 500#9 then
    ({ C with pullCnt := cnt, st := .locked, belowCnt := 0#11 }, [trackerEvent .locked .none C.sv n])
  else ({ C with pullCnt := cnt }, [])

/-- The lock detector's verdict counted: 2000 dumps below in a row demote (42_track.md R160). -/
def lockedDump (n : Index) (below : Bool) (C : Channel) : Channel × List Event :=
  let cnt := if below then C.belowCnt + 1#11 else 0#11
  if cnt = 2000#11 then
    ({ C with belowCnt := cnt, st := .unlocked }, [trackerEvent .unlocked .lockLost C.sv n])
  else ({ C with belowCnt := cnt }, [])

/-- The state machine of a dump, after the loops (42_track.md R158 to R160). -/
def stateMachine (nm : Numerics) (n : Index) (C : Channel) : Option (Channel × List Event) :=
  match C.st with
  | .pullIn => some (pullInDump n C)
  | .locked => do
    let below ← lockBelow nm C.thr C.pbuf
    pure (lockedDump n below C)
  | .idle => some (C, [])
  | .acquired => some (C, [])
  | .unlocked => some (C, [])

/-- The end of a dump: the accumulators cleared, the next epoch begins with the next sample (42_track.md R152). -/
def clearEpoch (n : Index) (C : Channel) : Channel :=
  { C with ie := 0, qe := 0, ip := 0, qp := 0, il := 0, ql := 0, estart := n + 1#64 }

/-- The loops and the state machine of a dump (42_track.md R152). -/
def dumpLoops (nm : Numerics) (n : Index) (C : Channel) : Option (Channel × List Event) := do
  let C1 ← carrierLoop nm (countPrompt C)
  let C2 ← codeLoop nm C1
  let r ← stateMachine nm n C2
  pure (clearEpoch n r.1, r.2)

/-- What a channel does with a sample: the records it emits, and its record after, `none` where an operation of `NUM` had
no number (60_exceptions.md R208). -/
structure ChanOut where
  prompts : List Prompt
  events : List Event
  chan : Option Channel
deriving DecidableEq, Repr

/-- `Dump(C, n)` (42_track.md R152). The PROMPT is emitted before the loops run, so it stands though they end in a numeric
exception (10_state.md R34). -/
def dump (nm : Numerics) (n : Index) (C : Channel) : ChanOut :=
  if C.aligned then
    match dumpLoops nm n C with
    | some r => { prompts := [promptOf C], events := r.2, chan := some r.1 }
    | none => { prompts := [promptOf C], events := [], chan := none }
  else
    { prompts := [], events := [], chan := some (clearEpoch n { C with aligned := true, st := .pullIn }) }

/-- The channel step, whole (42_track.md R151). -/
def chanStep (nm : Numerics) (n : Index) (x : Cplx) (C : Channel) : ChanOut :=
  match trackSample nm n x C with
  | none => { prompts := [], events := [], chan := none }
  | some r => if 1 ≤ r.2 then dump nm n r.1 else { prompts := [], events := [], chan := some r.1 }

/-! ### All channels -/

/-- The channel's record and its records after a sample with a result. -/
def chanDone (c : Chan) (o : ChanOut) (C : Channel) (s : State) : State :=
  ((s.emitPrompts o.prompts).emitEvents o.events).setChan c C

/-- A numeric exception in channel `c`: `raise Fault(4)` after what the step had emitted, the channel's record
unspecified, the rest as the step left it (60_exceptions.md R204, R208; 93_implementation_defined.md U13). -/
def chanFault (c : Chan) (n : Index) (o : ChanOut) (s : State) : State :=
  let s1 := (s.emitPrompts o.prompts).emitEvents o.events
  let s2 := raiseFault .internalInvariant s.ch[c].sv .tracker n s1
  { (s2.setChan c (Config.freeChannel s.freeCount)) with freeCount := s.freeCount + 1 }

/-- The channel step of each listed channel that is active at the start of its turn, in order (42_track.md R146). A
numeric exception ends the sample step (60_exceptions.md R205, log entry 11). -/
def runChannels (nm : Numerics) (n : Index) (x : Cplx) : List Chan → State → State
  | [], s => s
  | c :: cs, s =>
    if s.ch[c].active then
      let o := chanStep nm n x s.ch[c]
      match o.chan with
      | some C => runChannels nm n x cs (chanDone c o C s)
      | none => chanFault c n o s
    else runChannels nm n x cs s

/-- One active channel loses the stream at a gap (42_track.md R161). -/
def unlockChannel (n : Index) (s : State) (c : Chan) : State :=
  if s.ch[c].active then
    (s.setChan c { s.ch[c] with st := .unlocked }).emitEvents
      [trackerEvent .unlocked .sampleSourceOverrun s.ch[c].sv n]
  else s

/-- Every active channel, in ascending order, goes to UNLOCKED (42_track.md R161, 43_host.md R190). -/
def unlockAll (n : Index) (s : State) : State := (List.finRange nch).foldl (unlockChannel n) s

end Sys2Proof.Machine
end

