-- ==== Sys2Proof/Machine/HostPort.lean ====
section
/-! DEFINITION. The system commands NOP and SRESET, the raw sample front end and the sample step (43_host.md, 20_memory.md R62). -/

namespace Sys2Proof.Machine

/-! ### System commands -/

/-- `NOP` (43_host.md R185). -/
def execNop (s : State) : StepResult :=
  if s.fault.set then .next (refuse .faulted s) else .next (accept s)

/-- `SRESET`, executed in every state, the fault state included (43_host.md R186). -/
def execSreset (s : State) : StepResult := .next (softReset s)

/-! ### Raw samples -/

/-- Byte `b_k` of a raw sample. -/
def rawByte (bytes : BitVec 64) (k : Nat) : Byte := bytes.extractLsb' (8 * k) 8

/-- The value of an IEEE-754 binary32 number: 1 sign bit, 8 exponent bits biased by 127, 23 fraction bits, subnormals; an
infinity or a NaN has none (20_memory.md R62). -/
def float32Value (w : Word) : Option Scalar :=
  let e := (w.extractLsb' 23 8).toNat
  let m := (w.extractLsb' 0 23).toNat
  let sign : Scalar := if w.getLsbD 31 then -1 else 1
  if e = 255 then none
  else if e = 0 then some (sign * ((m : Rat) / 2 ^ 149))
  else if 150 ≤ e then some (sign * (((2 ^ 23 + m : Nat) : Rat) * 2 ^ (e - 150)))
  else some (sign * (((2 ^ 23 + m : Nat) : Rat) / 2 ^ (150 - e)))

/-- What the front end makes of a raw sample. -/
inductive RawDecoded where
  | sample (x : Cplx)
  | bad (k : FatalKind)
deriving DecidableEq, Repr

/-- The raw sample decoded by `SAMPLE_FMT[1:0]`, for a `uint8_iq` bias (20_memory.md R62). -/
def decodeRawWith (bias : Scalar) (fmt : BitVec 2) (bytes : BitVec 64) : RawDecoded :=
  let b := rawByte bytes
  match fmt with
  | 0#2 => .sample { re := ((b 0).toInt : Scalar), im := ((b 1).toInt : Scalar) }
  | 1#2 => .sample { re := ((b 0).toNat : Scalar) - bias, im := ((b 1).toNat : Scalar) - bias }
  | 2#2 =>
    match float32Value (b 3 ++ b 2 ++ b 1 ++ b 0), float32Value (b 7 ++ b 6 ++ b 5 ++ b 4) with
    | some i, some q => .sample { re := i, im := q }
    | _, _ => .bad .internalInvariant
  | _ => .bad .configInvalid

/-- The raw sample decoded by the format register as it stands (20_memory.md R62, 70_reset_and_hazards.md R240). -/
def decodeRaw (s : State) (bytes : BitVec 64) : RawDecoded :=
  decodeRawWith Config.u8Bias (s.regs.sampleFmt.extractLsb' 0 2) bytes

/-! ### The sample step (43_host.md R190) -/

/-- The EVENT of an overrun (43_host.md R190). -/
def overrunEvent (n : Index) : Event :=
  { kind := .error, svId := 0#6, stage := .source, err := .sampleSourceOverrun, t := n }

/-- A sample index above the expected one: overrun, every active channel unlocked, a running capture abandoned, the
sample used by nobody (43_host.md R190). -/
def gapStep (n : Index) (s : State) : State :=
  let s1 := unlockAll n (s.emitEvents [overrunEvent n])
  { s1 with
    win := if s1.win.capturing then s1.win.abandon else s1.win
    sidx := n + 1#64 }

/-- The index counter and the capture of an accepted sample, before the channels' work (43_host.md R190). -/
def takeSample (n : Index) (x : Cplx) (s : State) : State :=
  { s with sidxValid := true, sidx := n + 1#64, win := s.win.capture n x }

/-- An accepted sample: index, capture, channels in ascending order (43_host.md R190). -/
def acceptSample (nm : Numerics) (n : Index) (x : Cplx) (s : State) : State :=
  runChannels nm n x (List.finRange nch) (takeSample n x s)

/-- The sample port raises a fault: an index going backwards or a bad raw sample (60_exceptions.md R204). -/
def sourceFault (k : FatalKind) (n : Index) (s : State) : State := raiseFault k 0#6 .source n s

/-- The sample step of a typed sample (43_host.md R190). -/
def sampleStep (nm : Numerics) (n : Index) (x : Cplx) (s : State) : State :=
  if s.fault.set then s
  else if s.sidxValid && decide (n < s.sidx) then sourceFault .internalInvariant n s
  else if s.sidxValid && decide (s.sidx < n) then gapStep n s
  else acceptSample nm n x s

/-- The sample step of a raw sample: ignored in the fault state, decoded, then as a typed sample; one that does not decode
is dropped (20_memory.md R62, 43_host.md R190, log entry 10). -/
def rawStep (nm : Numerics) (n : Index) (bytes : BitVec 64) (s : State) : State :=
  if s.fault.set then s
  else
    match decodeRaw s bytes with
    | .sample x => sampleStep nm n x s
    | .bad k => sourceFault k n s

end Sys2Proof.Machine
end

