-- ==== Sys2Proof/Machine/Dispatch.lean ====
section
/-! DEFINITION. The command dispatch: one arm per constructor of `Instr`, each one direct call of its meaning. -/

namespace Sys2Proof.Machine

/-- What executing a command does (30_encoding.md R83, column Semantics). -/
def exec (i : Instr) (s : State) : Host.Outcome State Fault Refusal :=
  match i with
  | .nop => Sys2Proof.Machine.execNop s
  | .wcap => Sys2Proof.Machine.execWcap s
  | .acq cold sv => Sys2Proof.Machine.execAcq cold sv s
  | .acqabort => Sys2Proof.Machine.execAcqabort s
  | .tseed ch sv => Sys2Proof.Machine.execTseed ch sv s
  | .tstop ch => Sys2Proof.Machine.execTstop ch s
  | .sreset => Sys2Proof.Machine.execSreset s

end Sys2Proof.Machine
end

