-- ==== Sys2Proof/Machine/Fetch.lean ====
section
/-! DEFINITION. How a command reaches `exec` (a write to CMD is the command, 30_encoding.md R80), and the step of each agent
(00_scope.md R7). -/

namespace Sys2Proof.Machine

/-- A word that is no command is refused: FAULTED in the fault state, which comes first, else ILLEGAL (30_encoding.md
R84, 60_exceptions.md R203). -/
def refuseWord (s : State) : State := refuse (if s.fault.set then .faulted else .illegal) s

/-- Execute a command word (30_encoding.md R80, 60_exceptions.md R203). -/
def execWord (w : Word) (s : State) : StepResult :=
  match Sys2Proof.decode w with
  | .ok i => exec i s
  | .error _ => .next (refuseWord s)

/-- The host's write access: to CMD it is a command and stores nothing, to any other register it is `RegWrite`
(43_host.md R181, R182). -/
def hostWrite (off width : Nat) (v : Word) (s : State) : StepResult :=
  match regOfAccess off width with
  | none => .next (busError s)
  | some .cmd => execWord v { s with hostResp := .done }
  | some r => .next (regWrite r v s)

/-- The step of the agent the schedule names (00_scope.md R7). -/
def agentStep (nm : Numerics) (inp : Input) (s : State) : StepResult :=
  match inp with
  | .read off width => .next (regRead off width s)
  | .write off width v => hostWrite off width v s
  | .sample n x => .next (sampleStep nm n x s)
  | .raw n bytes => .next (rawStep nm n bytes s)
  | .acqFinish => .next (acqFinish nm s)

/-- The state with the head of the schedule taken off. -/
def State.popInput (s : State) (rest : List Input) : State := { s with inputs := rest }

/-- One step of the machine: the agent at the head of the schedule; with an empty schedule only the engine can step, and
where it cannot nothing changes (00_scope.md R8, 60_exceptions.md R213, log entry 2). -/
def scheduledStep (nm : Numerics) (s : State) : StepResult :=
  match s.inputs with
  | [] => .next (acqFinish nm s)
  | i :: rest => agentStep nm i (s.popInput rest)

/-- The byte offset of CMD. -/
def cmdOffset : Nat := RegName.cmd.offset

/-- The schedule entry by which the host issues a command word (30_encoding.md R80). -/
def cmdInput (w : Word) : Input := .write cmdOffset 32 w

end Sys2Proof.Machine
end

