-- ==== Sys2Proof/Machine/Step.lean ====
section
/-! DEFINITION. The step function of the machine. -/

namespace Sys2Proof.Machine

/-- One step, with the implementation's numerics (20_memory.md R67: steps are atomic and totally ordered). -/
def step (s : State) : Host.Outcome State Fault Refusal :=
  scheduledStep Config.num s

/-- The state whose next step is the host writing the command word `w` to CMD (30_encoding.md R80; a command has 32 bits,
R85). -/
def State.withFetchWord (s : State) (nbits w : Nat) : State :=
  { s with inputs := cmdInput (BitVec.ofNat 32 (w % 2 ^ nbits)) :: s.inputs }

end Sys2Proof.Machine
end

