-- ==== Sys2Proof/Machine/Script.lean ====
section
/-! DEFINITION. The host-script lines of 30_encoding.md R86 as schedule entries. -/

namespace Sys2Proof.Machine.Script

/-- `WR name, value` (30_encoding.md R86). -/
def wr (r : RegName) (v : Word) : Input := .write r.offset 32 v

/-- `RD name` (30_encoding.md R86). -/
def rd (r : RegName) : Input := .read r.offset 32

/-- A command line: `NOP`, `WCAP`, `ACQ sv[, COLD]`, `ACQABORT`, `TSEED ch, sv`, `TSTOP ch`, `SRESET` (30_encoding.md R86). -/
def cmd (i : Instr) : Input := cmdInput (encode i)

/-- `SAMPLE n, i, q` (30_encoding.md R86). -/
def sample (n : Nat) (i q : Scalar) : Input := .sample (BitVec.ofNat 64 n) { re := i, im := q }

/-- `FEED a..b : expr`, written with the number of samples `b − a + 1` (30_encoding.md R86). -/
def feed (a count : Nat) (expr : Nat → Cplx) : List Input :=
  (List.range count).map fun k => .sample (BitVec.ofNat 64 (a + k)) (expr (a + k))

/-- `FINISH` (30_encoding.md R86). -/
def finish : Input := .acqFinish

/-- `uq(x)`, the uq16 encoding `round(x · 65536)` of a rational (30_encoding.md R86). The spec does not say how `round`
takes a tie: here a half goes up (DESIGN CHOICE, log entry 21); no vector of the spec has one. -/
def uq (x : Scalar) : Word := BitVec.ofInt 32 (x * 65536 + 1 / 2).floor

/-- `WR64 name, v` (30_encoding.md R86). -/
def wr64 (lo hi : RegName) (v : Index) : List Input := [wr lo (lowWord v), wr hi (highWord v)]

/-- `RD64 name` (30_encoding.md R86). -/
def rd64 (lo hi : RegName) : List Input := [rd lo, rd hi]

/-- `SEEDRES` in a state whose result registers no other agent changes meanwhile (30_encoding.md R86): each result
register is read and its value written to the seed register. -/
def seedRes (s : State) : List Input :=
  [rd .acqResDoppler, wr .seedDoppler (regValue s .acqResDoppler),
   rd .acqResCphase, wr .seedCphase (regValue s .acqResCphase),
   rd .acqResAidxLo, rd .acqResAidxHi,
   wr .seedAidxLo (regValue s .acqResAidxLo), wr .seedAidxHi (regValue s .acqResAidxHi)]

/-- `WAIT flag`: the read of STATUS that the host repeats, and whether the flag's bit ends the wait (30_encoding.md R86). -/
def waitDone (flagBit : Nat) (status : Word) : Bool := status.getLsbD flagBit

end Sys2Proof.Machine.Script
end

