-- ==== Sys2Proof/Safety.lean ====
section
/-! DEFINITION. What holds of the block in every state a run reaches (10_state.md R41), in the terms the statements use. -/

namespace Sys2Proof.Machine

/-- The window memory is sound: never capturing and valid at once, in canonical form, counting below or at its size, with
every counted sample written, and latched from a legal configuration (10_state.md R41, 41_acquire.md R110, R111). -/
structure Win.Sound (w : Win) : Prop where
  exclusive : ¬(w.capturing = true ∧ w.valid = true)
  canonical : w.data.wf = true
  capturing_count : w.capturing = true → w.count < w.k * w.n
  valid_count : w.valid = true → w.count = w.k * w.n
  written : w.capturing = true ∨ w.valid = true → ∀ p, p < w.count → (w.data.read p).isSome = true
  latched : w.capturing = true ∨ w.valid = true → w.fs = 1000 * w.n ∧ 2046 ≤ w.n ∧ 1 ≤ w.k ∧ w.k ≤ 10000

/-- The window memory is sound, a running search has a valid window, and its latches are legal (10_state.md R41, R28). -/
structure WindowSound (s : State) : Prop where
  window : s.win.Sound
  busy_valid : s.acq.busy = true → s.win.valid = true
  operands : s.acq.busy = true →
    svLegal s.acq.sv = true ∧ 1 ≤ s.acq.step ∧ s.acq.range ≤ 0x7FFFFFFF

/-- One channel's record is sound (10_state.md R41, 42_track.md R147, R148, R152, R159, R160). -/
structure Channel.Sound (C : Channel) : Prop where
  seeded : C.active = true → svLegal C.sv = true ∧ 2046000 ≤ C.fs
  phases : C.active = true → C.phasePending = false → 0 ≤ C.cp ∧ C.cp < 1023 ∧ 0 ≤ C.theta ∧ C.theta < 1
  acquired : C.st = .acquired → C.aligned = false ∧ C.pullCnt = 0#9 ∧ C.pbuf = []
  pullIn : C.st = .pullIn →
    C.aligned = true ∧ C.phasePending = false ∧ C.pullCnt.toNat < 500 ∧ C.pbuf.length = C.pullCnt.toNat
  locked : C.st = .locked →
    C.aligned = true ∧ C.phasePending = false ∧ C.belowCnt.toNat < 2000 ∧ 500 ≤ C.pbuf.length
  buffer : C.pbuf.length ≤ 1000

/-- While no fault is set every channel's record is sound and no two active channels track one SV (10_state.md R41). A
numeric exception leaves one record unspecified, with the fault set until a reset (60_exceptions.md R208). -/
structure TrackSound (s : State) : Prop where
  channels : s.fault.set = false → ∀ c : Chan, s.ch[c].Sound
  distinct : s.fault.set = false → ∀ c d : Chan, s.ch[c].active = true → s.ch[d].active = true →
    s.ch[c].sv = s.ch[d].sv → c = d

/-- The fault latch holds code 0 when clear, 2 or 4 when set, and the reserved bits of SAMPLE_FMT and PRN_SEL are 0
(10_state.md R23, R24, R35; 93_implementation_defined.md U2, U5). -/
structure LatchSound (s : State) : Prop where
  clear : s.fault.set = false → s.fault.code = 0#4
  code : s.fault.set = true → s.fault.code = 2#4 ∨ s.fault.code = 4#4
  sampleFmt : s.regs.sampleFmt &&& 0xFFFFFFFC#32 = 0#32
  prnSel : s.regs.prnSel &&& 0xFFC0FC00#32 = 0#32

/-- The transitions of a channel's state that the table of 42_track.md R158 lists, and staying. -/
def ChState.mayBecome : ChState → ChState → Bool
  | .idle, .idle | .idle, .acquired => true
  | .unlocked, .unlocked | .unlocked, .acquired | .unlocked, .idle => true
  | .acquired, .acquired | .acquired, .pullIn | .acquired, .unlocked | .acquired, .idle => true
  | .pullIn, .pullIn | .pullIn, .locked | .pullIn, .unlocked | .pullIn, .idle => true
  | .locked, .locked | .locked, .unlocked | .locked, .idle => true
  | _, _ => false

/-- A command word is illegal: it matches no row of 30_encoding.md R83, or has an operand out of range (R84). -/
def IllegalWord (w : Word) : Prop :=
  (∀ r ∈ opRows, w &&& r.mask ≠ r.pattern) ∨
  ((w &&& 0xFFFFFEC0#32 = 0x11000000#32 ∨ w &&& 0xFFF0FFC0#32 = 0x20000000#32) ∧
    ((svField w).toNat = 0 ∨ 32 < (svField w).toNat)) ∨
  ((w &&& 0xFFF0FFC0#32 = 0x20000000#32 ∨ w &&& 0xFFF0FFFF#32 = 0x21000000#32) ∧ 9 < (chField w).toNat)

/-- An OP value that 30_encoding.md R84 lists as reserved. -/
def ReservedOp (op : BitVec 8) : Prop :=
  (0x01 ≤ op.toNat ∧ op.toNat ≤ 0x0F) ∨ (0x13 ≤ op.toNat ∧ op.toNat ≤ 0x1F) ∨
  (0x22 ≤ op.toNat ∧ op.toNat ≤ 0x7E) ∨ (0x80 ≤ op.toNat ∧ op.toNat ≤ 0xFF)

/-- Every field the table of 10_state.md R40 gives a reset value has that value. The contents of the window memory, which
R40 leaves unspecified, and the traces are not named. -/
structure AtReset (s : State) : Prop where
  regs : s.regs = {
    sampleRate := 0, sampleFmt := 0, centerFreq := 1575420000, acqDoppRange := 5000,
    acqDoppRangeCold := 10000, acqDoppStep := 200, acqThresh := 0x00028000, acqK := 10, maxTracked := 10,
    pllBw := 0x000A0000, dllBw := 0x00010000, lockThresh := 0, seedDoppler := 0, seedCphase := 0, seedAidxLo := 0,
    seedAidxHi := 0, prnSel := 0 }
  sidx : s.sidx = 0 ∧ s.sidxValid = false ∧ s.sidxHiLatch = 0
  win : s.win.capturing = false ∧ s.win.valid = false ∧ s.win.count = 0 ∧ s.win.start = 0 ∧ s.win.n = 0 ∧
    s.win.k = 0 ∧ s.win.fs = 0
  acq : s.acq = {
    busy := false, done := false, sv := 0, range := 0, step := 0, thr := 0,
    res := { status := .none, sv := 0, doppler := 0, cphase := 0, aidx := 0 } }
  channels : ∀ c : Chan, s.ch[c] = {
    st := .idle, sv := 0, fs := 0, wn := 0, gdll := 0, thr := 0, fSeed := 0, cpSeed := 0,
    aidx := 0, phasePending := false, theta := 0, f := 0, pint := 0, cp := 0, rate := 0, ie := 0, qe := 0, ip := 0,
    qp := 0, il := 0, ql := 0, aligned := false, estart := 0, pullCnt := 0, belowCnt := 0, epochs := 0, pbuf := [] }
  fault : s.fault = { set := false, code := 0 }
  cmdStat : s.cmdStat.code = 0

/-- Every exact result is a number of `S`: a `NUM` without numeric exceptions but for division by zero
(60_exceptions.md R208, over the reference numerics). -/
def unboundedNumerics (nm : Numerics) : Prop := ∀ x : Scalar, nm.isNumber x = true

/-- The entry of the array `P` at bin `b` and code phase `m` (10_state.md R29). -/
def gridEntry (p : List (List Scalar)) (b m : Nat) : Option Scalar := p[b]?.bind fun row => row[m]?

end Sys2Proof.Machine
end

