-- ==== Sys2Proof/Certificates/Slice0/Obligations.lean ====
section
/-! DEFINITION. The statements for the provers, each citing the rule of spec/ it formalises or rests on. -/

open Sys2Proof Sys2Proof.Machine

/-! ### Encoding (30_encoding.md) -/

/-- Decoding gives back every encoded command, and a word that decodes is the encoding of what it decodes to: no bit of a
command word is dropped or ignored (R81, R83). -/
def Obligations.DecodeEncodeAgree : Prop :=
  (∀ i : Instr, decode (encode i) = .ok i) ∧ ∀ (w : Word) (i : Instr), decode w = .ok i → encode i = w

/-- The command words of 95_test_vectors.md V31, written bit by bit from R81 and R83, decode to their commands. -/
def Obligations.WrittenCommandWordsDecode : Prop :=
  decode 0b00000000000000000000000000000000#32 = .ok .nop ∧
  decode 0b00010000000000000000000000000000#32 = .ok .wcap ∧
  decode 0b00010001000000000000000000000001#32 = .ok (.acq false 1) ∧
  decode 0b00010001000000000000000100000101#32 = .ok (.acq true 5) ∧
  decode 0b00010001000000000000000000100000#32 = .ok (.acq false 32) ∧
  decode 0b00010010000000000000000000000000#32 = .ok .acqabort ∧
  decode 0b00100000000000000000000000000001#32 = .ok (.tseed 0 1) ∧
  decode 0b00100000000010010000000000100000#32 = .ok (.tseed 9 32) ∧
  decode 0b00100001000000110000000000000000#32 = .ok (.tstop 3) ∧
  decode 0b00100001000010010000000000000000#32 = .ok (.tstop 9) ∧
  decode 0b01111111000000000000000000000000#32 = .ok .sreset

/-- R84: an illegal word is refused with ILLEGAL and changes nothing else, a reserved OP makes a word illegal, and in the
fault state every word but the legal SRESET is refused with FAULTED, legal or not. -/
def Obligations.IllegalWordsAreRefused : Prop :=
  (∀ (w : Word) (s : State), IllegalWord w → s.fault.set = false →
    execWord w s = .next { s with cmdStat := .illegal }) ∧
  (∀ w : Word, ReservedOp (opField w) → IllegalWord w) ∧
  (∀ (w : Word) (s : State), s.fault.set = true → w ≠ 0x7F000000#32 →
    execWord w s = .next { s with cmdStat := .faulted })

/-- A step is the step of the agent at the head of the schedule, on the state with that entry taken off (R7; that a
schedule orders the agents, and that with none left the engine has its turn, is the model's choice, log entry 2; the answer
to the host is held as log entry 3 says). A write of a command word to CMD runs the decoded command (R80), any other
access is the register read or write, the sample entries are the sample steps (R190), the engine's is AcqFinish. -/
def Obligations.StepRunsDecodedCommand : Prop :=
  (∀ (s : State) (w : Word) (rest : List Input) (i : Instr), s.inputs = .write 0x04 32 w :: rest → decode w = .ok i →
    step s = exec i { s with inputs := rest, hostResp := .done }) ∧
  (∀ (s : State) (w : Nat) (i : Instr), w < 2 ^ 32 → decodeTableWord 32 w = some i →
    step (s.withFetchWord 32 w) = exec i { s with hostResp := .done }) ∧
  (∀ s : State, s.inputs = [] → step s = .next (acqFinish Config.num s)) ∧
  ∀ (s : State) (a : Input) (rest : List Input), s.inputs = a :: rest →
    let p : State := { s with inputs := rest }
    (∀ w, a = .write 0x04 32 w → step s = execWord w { p with hostResp := .done }) ∧
    (∀ (r : RegName) v, a = .write r.offset 32 v → r ≠ .cmd → step s = .next (regWrite r v p)) ∧
    (∀ off width v, a = .write off width v → (∀ r : RegName, ¬(width = 32 ∧ off = r.offset)) →
      step s = .next { p with hostResp := .busError }) ∧
    (∀ off width, a = .read off width → step s = .next (regRead off width p)) ∧
    (∀ n x, a = .sample n x → step s = .next (sampleStep Config.num n x p)) ∧
    (∀ n b, a = .raw n b → step s = .next (rawStep Config.num n b p)) ∧
    (a = .acqFinish → step s = .next (acqFinish Config.num p))

/-! ### Commands: results, refusals and frames -/

/-- R185, whole: NOP is the word 0; it clears CMDSTAT and changes nothing else; in the fault state it is refused. -/
def Obligations.NopClearsCmdStat : Prop :=
  decode 0x00000000#32 = .ok .nop ∧
  ∀ s : State,
    (s.fault.set = true → exec .nop s = .next { s with cmdStat := .faulted }) ∧
    (s.fault.set = false → exec .nop s = .next { s with cmdStat := .ok })

/-- R110: with a legal configuration, no search and no capture WCAP latches SAMPLE_RATE and ACQ_K and starts a capture;
nothing else changes. Otherwise it is refused FAULTED or BUSY. -/
def Obligations.WcapStartsCapture : Prop :=
  ∀ s : State,
    (s.fault.set = true → exec .wcap s = .next { s with cmdStat := .faulted }) ∧
    (s.fault.set = false → cfgOk s.regs = true → (s.acq.busy = true ∨ s.win.capturing = true) →
      exec .wcap s = .next { s with cmdStat := .busy }) ∧
    (s.fault.set = false → cfgOk s.regs = true → s.acq.busy = false → s.win.capturing = false →
      exec .wcap s = .next { s with
        cmdStat := .ok
        win := { s.win with
          fs := s.regs.sampleRate.toNat, n := s.regs.sampleRate.toNat / 1000, k := s.regs.acqK.toNat,
          count := 0, valid := false, capturing := true } })

/-- R112: with a legal SV and configuration, a valid window and an idle engine ACQ latches its operands and makes the
engine busy; nothing else changes. Otherwise it is refused, in the rule's order. -/
def Obligations.AcqStartsSearch : Prop :=
  ∀ (cold : Bool) (sv : BitVec 6) (s : State),
    (s.fault.set = true → exec (.acq cold sv) s = .next { s with cmdStat := .faulted }) ∧
    (s.fault.set = false → (sv.toNat = 0 ∨ 32 < sv.toNat) → exec (.acq cold sv) s = .next { s with cmdStat := .illegal }) ∧
    (s.fault.set = false → 1 ≤ sv.toNat → sv.toNat ≤ 32 → cfgOk s.regs = true →
      (s.acq.busy = true → exec (.acq cold sv) s = .next { s with cmdStat := .busy }) ∧
      (s.acq.busy = false → s.win.valid = false → exec (.acq cold sv) s = .next { s with cmdStat := .noWindow }) ∧
      (s.acq.busy = false → s.win.valid = true →
        exec (.acq cold sv) s = .next { s with
          cmdStat := .ok
          acq := { s.acq with
            sv := sv
            range := if cold = true then s.regs.acqDoppRangeCold.toNat else s.regs.acqDoppRange.toNat
            step := s.regs.acqDoppStep.toNat
            thr := (s.regs.acqThresh.toNat : Rat) / 65536
            busy := true, done := false, res := { s.acq.res with status := .none } } }))

/-- R113, whole: ACQABORT cancels a running search without a record and without touching the other result registers, or
drops a running capture, or is refused NOT_BUSY. -/
def Obligations.AcqabortCancels : Prop :=
  decode 0x12000000#32 = .ok .acqabort ∧
  ∀ s : State,
    (s.fault.set = true → exec .acqabort s = .next { s with cmdStat := .faulted }) ∧
    (s.fault.set = false → s.acq.busy = true →
      exec .acqabort s = .next { s with
        cmdStat := .ok
        acq := { s.acq with busy := false, done := true, res := { s.acq.res with status := .cancelled } } }) ∧
    (s.fault.set = false → s.acq.busy = false → s.win.capturing = true →
      exec .acqabort s = .next { s with
        cmdStat := .ok, win := { s.win with capturing := false, valid := false, count := 0 } }) ∧
    (s.fault.set = false → s.acq.busy = false → s.win.capturing = false →
      exec .acqabort s = .next { s with cmdStat := .notBusy })

/-- R140: TSEED on a free channel writes the whole channel record from the SEED and configuration registers; nothing else
changes. Otherwise it is refused, in the rule's order. The constant π is the implementation's (log entry 1). -/
def Obligations.TseedSeedsChannel : Prop :=
  ∀ (ch : BitVec 4) (sv : BitVec 6) (s : State),
    (s.fault.set = true → exec (.tseed ch sv) s = .next { s with cmdStat := .faulted }) ∧
    (s.fault.set = false → (9 < ch.toNat ∨ sv.toNat = 0 ∨ 32 < sv.toNat) →
      exec (.tseed ch sv) s = .next { s with cmdStat := .illegal }) ∧
    (∀ c : Chan, c.val = ch.toNat → s.fault.set = false → 1 ≤ sv.toNat → sv.toNat ≤ 32 → cfgOk s.regs = true →
      (s.ch[c].active = true → exec (.tseed ch sv) s = .next { s with cmdStat := .chBusy }) ∧
      (s.ch[c].active = false → s.regs.maxTracked.toNat ≤ nActive s →
        exec (.tseed ch sv) s = .next { s with cmdStat := .slotsFull }) ∧
      (s.ch[c].active = false → nActive s < s.regs.maxTracked.toNat →
        (∃ d : Chan, d ≠ c ∧ s.ch[d].active = true ∧ s.ch[d].sv = sv) →
        exec (.tseed ch sv) s = .next { s with cmdStat := .dupSv }) ∧
      (s.ch[c].active = false → nActive s < s.regs.maxTracked.toNat →
        (∀ d : Chan, d ≠ c → s.ch[d].active = true → s.ch[d].sv ≠ sv) →
        s.regs.sampleRate.toNat / 1000 ≤ s.regs.seedCphase.toNat →
        exec (.tseed ch sv) s = .next { s with cmdStat := .badSeed }) ∧
      (s.ch[c].active = false → nActive s < s.regs.maxTracked.toNat →
        (∀ d : Chan, d ≠ c → s.ch[d].active = true → s.ch[d].sv ≠ sv) →
        s.regs.seedCphase.toNat < s.regs.sampleRate.toNat / 1000 →
        exec (.tseed ch sv) s = .next { s with
          cmdStat := .ok
          ch := s.ch.set c {
            st := .acquired, sv := sv, fs := s.regs.sampleRate.toNat
            wn := 2 * Config.num.pi * ((s.regs.pllBw.toNat : Rat) / 65536)
            gdll := 2 * ((s.regs.dllBw.toNat : Rat) / 65536)
            thr := (s.regs.lockThresh.toNat : Rat) / 65536
            fSeed := s.regs.seedDoppler.toInt, cpSeed := s.regs.seedCphase.toNat
            aidx := s.regs.seedAidxHi ++ s.regs.seedAidxLo
            phasePending := true, theta := 0, f := s.regs.seedDoppler.toInt, pint := 0, cp := 0
            rate := 1023000 * (1 + (s.regs.seedDoppler.toInt : Rat) / 1575420000)
            ie := 0, qe := 0, ip := 0, qp := 0, il := 0, ql := 0
            aligned := false, estart := 0, pullCnt := 0, belowCnt := 0, epochs := 0, pbuf := [] } }))

/-- R141, whole: TSTOP puts an active channel to IDLE, its other fields and everything else as they were, without an
event; on a channel that is not active it is refused CH_IDLE. -/
def Obligations.TstopReleasesChannel : Prop :=
  (∀ ch : BitVec 4, decode (0x21000000#32 ||| (ch.setWidth 32 <<< 16)) = .ok (.tstop ch)) ∧
  ∀ (ch : BitVec 4) (s : State),
    (s.fault.set = true → exec (.tstop ch) s = .next { s with cmdStat := .faulted }) ∧
    (s.fault.set = false → 9 < ch.toNat → exec (.tstop ch) s = .next { s with cmdStat := .illegal }) ∧
    (∀ c : Chan, c.val = ch.toNat → s.fault.set = false →
      (s.ch[c].st = .idle ∨ s.ch[c].st = .unlocked → exec (.tstop ch) s = .next { s with cmdStat := .chIdle }) ∧
      (s.ch[c].st = .acquired ∨ s.ch[c].st = .pullIn ∨ s.ch[c].st = .locked →
        exec (.tstop ch) s = .next { s with cmdStat := .ok, ch := s.ch.set c { s.ch[c] with st := .idle } }))

/-- SRESET is the exact word 0x7F000000 and completes in every state, the fault state included; every field of R40's table
has its reset value after it, and the traces keep their records (R186, R40). The last clause is the model's choice: the
three fields that are not the block's stay (log entries 2, 3 and 7). -/
def Obligations.SresetRestoresReset : Prop :=
  decode 0x7F000000#32 = .ok .sreset ∧
  (∀ (w : Word) (s : State), opField w = 0x7F#8 → w ≠ 0x7F000000#32 →
    execWord w s = .next { s with cmdStat := if s.fault.set = true then .faulted else .illegal }) ∧
  ∀ s : State, ∃ t, exec .sreset s = .next t ∧ AtReset t ∧
    t.prompts = s.prompts ∧ t.reports = s.reports ∧ t.events = s.events ∧
    t.inputs = s.inputs ∧ t.hostResp = s.hostResp ∧ t.freeCount = s.freeCount

/-- R203 step 3 with R204: WCAP, ACQ and TSEED with legal operands and an illegal configuration raise Fault(2): the latch,
CMDSTAT 9 and one ERROR event with the raiser's SV and stage and the stamp SIDX; nothing else changes. -/
def Obligations.ConfigInvalidFaultsTheCommand : Prop :=
  ∀ s : State, s.fault.set = false → cfgOk s.regs = false →
    exec .wcap s = .next { s with
      fault := { set := true, code := 2 }, cmdStat := .faulted
      events := s.events ++ [{ kind := .error, svId := 0, stage := .acquirer, err := .configInvalid, t := s.sidx }] } ∧
    (∀ (cold : Bool) (sv : BitVec 6), 1 ≤ sv.toNat → sv.toNat ≤ 32 →
      exec (.acq cold sv) s = .next { s with
        fault := { set := true, code := 2 }, cmdStat := .faulted
        events := s.events ++ [{ kind := .error, svId := sv, stage := .acquirer, err := .configInvalid, t := s.sidx }] }) ∧
    (∀ (ch : BitVec 4) (sv : BitVec 6), ch.toNat ≤ 9 → 1 ≤ sv.toNat → sv.toNat ≤ 32 →
      exec (.tseed ch sv) s = .next { s with
        fault := { set := true, code := 2 }, cmdStat := .faulted
        events := s.events ++ [{ kind := .error, svId := sv, stage := .tracker, err := .configInvalid, t := s.sidx }] })

/-- R184: CFG_OK is the conjunction of the eight conditions, for every capacity of the window memory; the check the
commands make is that one at the implementation's capacity. -/
def Obligations.CfgOkIsEightConditions : Prop :=
  (∀ r : Regs, cfgOk r = cfgOkWith Config.winDepth r) ∧
  ∀ (depth : Option Nat) (r : Regs), cfgOkWith depth r = true ↔
    2046000 ≤ r.sampleRate.toNat ∧ r.sampleRate.toNat % 1000 = 0 ∧ r.sampleFmt.toNat ≤ 2 ∧ 1 ≤ r.acqDoppStep.toNat ∧
    (r.acqDoppRange.toNat ≤ 0x7FFFFFFF ∧ r.acqDoppRangeCold.toNat ≤ 0x7FFFFFFF) ∧
    (1 ≤ r.acqK.toNat ∧ r.acqK.toNat ≤ 10000) ∧ (1 ≤ r.maxTracked.toNat ∧ r.maxTracked.toNat ≤ 10) ∧
    ∀ d, depth = some d → r.acqK.toNat * (r.sampleRate.toNat / 1000) ≤ d

/-- A TSEED that ends with CMDSTAT 0 raises the number of active channels by one, and leaves it within MAX_TRACKED as
read by that TSEED (R140, R41). -/
def Obligations.TseedKeepsSlotLimit : Prop :=
  ∀ (ch : BitVec 4) (sv : BitVec 6) (s t : State), exec (.tseed ch sv) s = .next t → t.cmdStat = .ok →
    nActive t = nActive s + 1 ∧ nActive t ≤ s.regs.maxTracked.toNat

/-! ### Host registers (10_state.md, 20_memory.md, 43_host.md) -/

/-- R23: every register stands at its offset with its access kind and its reset value (PRN_DATA, a function of PRN_SEL, is
named without one). -/
def Obligations.RegisterMapAfterReset : Prop :=
  (∀ e ∈ [((0x00 : Nat), RegName.id, Access.ro, (0x47595037#32 : Word)), (0x04, .cmd, .wo, 0), (0x08, .cmdStat, .ro, 0),
      (0x0C, .status, .ro, 0), (0x10, .sampleRate, .rw, 0), (0x14, .sampleFmt, .rw, 0),
      (0x18, .centerFreq, .rw, 1575420000), (0x1C, .acqDoppRange, .rw, 5000), (0x20, .acqDoppRangeCold, .rw, 10000),
      (0x24, .acqDoppStep, .rw, 200), (0x28, .acqThresh, .rw, 0x00028000), (0x2C, .acqK, .rw, 10),
      (0x30, .maxTracked, .rw, 10), (0x34, .pllBw, .rw, 0x000A0000), (0x38, .dllBw, .rw, 0x00010000),
      (0x3C, .lockThresh, .rw, 0), (0x40, .seedDoppler, .rw, 0), (0x44, .seedCphase, .rw, 0), (0x48, .seedAidxLo, .rw, 0),
      (0x4C, .seedAidxHi, .rw, 0), (0x50, .sidxLo, .ro, 0), (0x54, .sidxHi, .ro, 0), (0x58, .prnSel, .rw, 0),
      (0x60, .acqResStatus, .ro, 0), (0x64, .acqResSv, .ro, 0), (0x68, .acqResDoppler, .ro, 0),
      (0x6C, .acqResCphase, .ro, 0), (0x70, .acqResAidxLo, .ro, 0), (0x74, .acqResAidxHi, .ro, 0),
      (0x78, .winStartLo, .ro, 0), (0x7C, .winStartHi, .ro, 0)],
    regAt e.1 = some e.2.1 ∧ e.2.1.access = e.2.2.1 ∧ regValue State.reset e.2.1 = e.2.2.2) ∧
  (regAt 0x5C = some .prnData ∧ RegName.prnData.access = .ro) ∧
  ∀ c : Chan,
    (regAt (0x80 + 8 * c.val) = some (.chStatus c) ∧ (RegName.chStatus c).access = .ro ∧
      regValue State.reset (.chStatus c) = 0) ∧
    (regAt (0x84 + 8 * c.val) = some (.chEpochs c) ∧ (RegName.chEpochs c).access = .ro ∧
      regValue State.reset (.chEpochs c) = 0)

/-- R180: a 32-bit read of a mapped register answers its value as of this step and changes no state but the SIDX_HI latch,
which a read of SIDX_LO sets; in every state, the fault state included. The value is that of the state the register shows
(R23, R28, R61, R66); CMDSTAT, STATUS, PRN_DATA and CHc_STATUS have statements of their own. -/
def Obligations.RegReadAnswersValue : Prop :=
  (∀ (nm : Numerics) (r : RegName) (s : State),
    agentStep nm (.read r.offset 32) s = .next { s with
      hostResp := .data (regValue s r)
      sidxHiLatch := if r = .sidxLo then highWord s.sidx else s.sidxHiLatch }) ∧
  (∀ s : State,
    (regValue s .id = 0x47595037#32 ∧ regValue s .cmd = 0#32) ∧
    (regValue s .sampleRate = s.regs.sampleRate ∧ regValue s .sampleFmt = s.regs.sampleFmt ∧
      regValue s .centerFreq = s.regs.centerFreq ∧ regValue s .acqDoppRange = s.regs.acqDoppRange ∧
      regValue s .acqDoppRangeCold = s.regs.acqDoppRangeCold ∧ regValue s .acqDoppStep = s.regs.acqDoppStep ∧
      regValue s .acqThresh = s.regs.acqThresh ∧ regValue s .acqK = s.regs.acqK ∧
      regValue s .maxTracked = s.regs.maxTracked ∧ regValue s .pllBw = s.regs.pllBw ∧
      regValue s .dllBw = s.regs.dllBw ∧ regValue s .lockThresh = s.regs.lockThresh ∧
      regValue s .seedDoppler = s.regs.seedDoppler ∧ regValue s .seedCphase = s.regs.seedCphase ∧
      regValue s .seedAidxLo = s.regs.seedAidxLo ∧ regValue s .seedAidxHi = s.regs.seedAidxHi ∧
      regValue s .prnSel = s.regs.prnSel) ∧
    (regValue s .sidxLo = s.sidx.extractLsb' 0 32 ∧ regValue s .sidxHi = s.sidxHiLatch ∧
      highWord s.sidx = s.sidx.extractLsb' 32 32) ∧
    ((regValue s .acqResStatus).toNat = s.acq.res.status.code.toNat ∧
      (regValue s .acqResSv).toNat = s.acq.res.sv.toNat ∧ regValue s .acqResDoppler = s.acq.res.doppler ∧
      regValue s .acqResCphase = s.acq.res.cphase ∧
      (regValue s .acqResAidxHi ++ regValue s .acqResAidxLo : Index) = s.acq.res.aidx) ∧
    (regValue s .winStartHi ++ regValue s .winStartLo : Index) = s.win.start ∧
    ∀ c : Chan, regValue s (.chEpochs c) = s.ch[c].epochs) ∧
  [ResStatus.none, .ok, .failed, .cancelled].map ResStatus.code = [0, 1, 2, 3]

/-- R181: a 32-bit write to a read-write register stores the value under the register's mask, whatever the value and
whatever the state, and changes nothing else; a write to CMD executes the word; a write to a read-only register is a bus
error that changes nothing. -/
def Obligations.RegWriteStoresMasked : Prop :=
  ∀ (nm : Numerics) (r : RegName) (v : Word) (s : State),
    (r.access = .rw → ∃ regs', agentStep nm (.write r.offset 32 v) s = .next { s with regs := regs', hostResp := .done } ∧
      (∀ r', r'.access = .rw → regValue { s with regs := regs', hostResp := .done } r' =
        if r' = r then v &&& (if r = .sampleFmt then 0x00000003#32 else if r = .prnSel then 0x003F03FF#32 else 0xFFFFFFFF#32)
        else regValue s r')) ∧
    (r = .cmd → agentStep nm (.write r.offset 32 v) s = execWord v { s with hostResp := .done }) ∧
    (r.access = .ro → agentStep nm (.write r.offset 32 v) s = .next { s with hostResp := .busError })

/-- R182: an access of a width other than 32 bits, at an offset that is no multiple of 4, or at an offset of 0xD0 and above,
and a write to a read-only register, is a bus error: no state of the block changes. -/
def Obligations.BadAccessIsBusError : Prop :=
  ∀ (nm : Numerics) (off width : Nat) (v : Word) (s : State),
    ((width ≠ 32 ∨ off % 4 ≠ 0 ∨ 0xD0 ≤ off) →
      agentStep nm (.read off width) s = .next { s with hostResp := .busError } ∧
      agentStep nm (.write off width v) s = .next { s with hostResp := .busError }) ∧
    (∀ r : RegName, r.access = .ro → off = r.offset →
      agentStep nm (.write off width v) s = .next { s with hostResp := .busError })

/-- R66: after a read of SIDX_LO, steps of the sample source and of the engine leave the latch alone, so a read of SIDX_HI
completes the 64-bit value that SIDX had at the first read. -/
def Obligations.SidxPairReadsOneValue : Prop :=
  (∀ (s t : State), t.sidxHiLatch = (regRead RegName.sidxLo.offset 32 s).sidxHiLatch →
    (regRead RegName.sidxLo.offset 32 s).hostResp = .data (lowWord s.sidx) ∧
    (regValue t .sidxHi ++ lowWord s.sidx : Index) = s.sidx) ∧
  (∀ (nm : Numerics) (n : Index) (x : Cplx) (b : BitVec 64) (s : State),
    (sampleStep nm n x s).sidxHiLatch = s.sidxHiLatch ∧ (rawStep nm n b s).sidxHiLatch = s.sidxHiLatch ∧
    (acqFinish nm s).sidxHiLatch = s.sidxHiLatch)

/-- R24, whole: the fields of STATUS, computed from the state they mirror; the reserved bits read 0. -/
def Obligations.StatusMirrorsState : Prop :=
  ∀ s : State,
    let w := regValue s .status
    w.getLsbD 0 = s.acq.busy ∧ w.getLsbD 1 = s.win.capturing ∧
    w.getLsbD 2 = s.win.valid ∧ w.getLsbD 3 = s.acq.done ∧
    (w.getLsbD 4 = true ↔ s.acq.res.status.code = 1) ∧ w.getLsbD 5 = s.fault.set ∧
    w.getLsbD 6 = s.sidxValid ∧ w.getLsbD 7 = false ∧
    w.extractLsb' 8 4 = (if s.fault.set = true then s.fault.code else 0#4) ∧
    w.extractLsb' 12 4 = 0#4 ∧ (w.extractLsb' 16 4).toNat = nActive s ∧ nActive s ≤ 10 ∧
    w.extractLsb' 20 12 = 0#12

/-- R31, whole, with the numbering of R25 and R30: CHc_STATUS holds the state number, the SV and `aligned`, CMDSTAT the
outcome code in bits 3:0, no code above 10; every other bit of both reads 0. -/
def Obligations.CommandAndChannelStatusWords : Prop :=
  (∀ s : State, (regValue s .cmdStat).extractLsb' 0 4 = s.cmdStat.code ∧ (regValue s .cmdStat).extractLsb' 4 28 = 0#28 ∧
    s.cmdStat.code.toNat ≤ 10) ∧
  ([CmdStat.ok, .illegal, .busy, .noWindow, .chBusy, .slotsFull, .dupSv, .badSeed, .notBusy, .faulted, .chIdle].map
    CmdStat.code = [0, 1, 2, 3, 4, 5, 6, 7, 8, 9, 10]) ∧
  (∀ (s : State) (c : Chan),
    (regValue s (.chStatus c)).extractLsb' 0 3 = s.ch[c].st.code ∧ (regValue s (.chStatus c)).extractLsb' 3 5 = 0#5 ∧
    (regValue s (.chStatus c)).extractLsb' 8 6 = s.ch[c].sv ∧ (regValue s (.chStatus c)).getLsbD 14 = s.ch[c].aligned ∧
    (regValue s (.chStatus c)).extractLsb' 15 17 = 0#17) ∧
  ([ChState.idle, .acquired, .pullIn, .locked, .unlocked].map ChState.code = [0, 1, 2, 3, 4])

/-- R26, whole: PRN_DATA reads the chip bit that PRN_SEL selects where the SV is 1..32 and the chip 0..1022, and INVALID
otherwise; the read has no side effect. -/
def Obligations.PrnDataReadsChip : Prop :=
  ∀ s : State,
    let sv : BitVec 6 := s.regs.prnSel.extractLsb' 16 6
    let i := (s.regs.prnSel.extractLsb' 0 10).toNat
    ((1 ≤ sv.toNat ∧ sv.toNat ≤ 32 ∧ i ≤ 1022) →
      (prn sv i = 1 ∨ prn sv i = -1) ∧
      (prn sv i = 1 → regValue s .prnData = 0x00000000#32) ∧ (prn sv i = -1 → regValue s .prnData = 0x00000001#32) ∧
      (regValue s .prnData).getLsbD 0 = ca sv i) ∧
    (¬(1 ≤ sv.toNat ∧ sv.toNat ≤ 32 ∧ i ≤ 1022) → regValue s .prnData = 0x80000000#32) ∧
    regRead RegName.prnData.offset 32 s = { s with hostResp := .data (regValue s .prnData) }

/-! ### PRN generator (40_prn.md) -/

/-- The table of R106: the first ten chips of every SV, in octal (the default tap table, log entry 6). -/
def Obligations.FirstTenChipsTable : Prop :=
  (List.range 32).map (fun k => (List.range 10).foldl (fun a i => 2 * a + (ca (BitVec.ofNat 6 (k + 1)) i).toNat) 0) =
    [0o1440, 0o1620, 0o1710, 0o1744, 0o1133, 0o1455, 0o1131, 0o1454, 0o1626, 0o1504, 0o1642, 0o1750, 0o1764, 0o1772,
     0o1775, 0o1776, 0o1156, 0o1467, 0o1633, 0o1715, 0o1746, 0o1763, 0o1063, 0o1706, 0o1743, 0o1761, 0o1770, 0o1774,
     0o1127, 0o1453, 0o1625, 0o1712]

/-- R106: every code has 512 chip bits equal to 1 and 511 equal to 0 (the default tap table, log entry 6). -/
def Obligations.CodesAreBalanced : Prop :=
  ∀ sv : BitVec 6, svLegal sv = true →
    (List.range 1023).countP (fun i => ca sv i) = 512 ∧ (List.range 1023).countP (fun i => !ca sv i) = 511

/-- R101: the registers are back at all ones after 1023 shifts, so the code repeats with period 1023. -/
def Obligations.LfsrHasPeriod1023 : Prop :=
  ∀ i : Nat, lfsrAfter (i + 1023) = lfsrAfter i

/-- R105: with `N ≥ 2046` samples per period the resampled code takes only chips of the code, in order, and every chip
occurs at least twice in a row. -/
def Obligations.ResamplingKeepsEveryChip : Prop :=
  ∀ (sv : BitVec 6) (n : Nat), 2046 ≤ n →
    (∀ k, k < n → ∃ i, i < 1023 ∧ i * n ≤ k * 1023 ∧ k * 1023 < (i + 1) * n ∧ prnResampled sv n k = prn sv i) ∧
    (∀ i, i < 1023 → ∃ k, k + 1 < n ∧ prnResampled sv n k = prn sv i ∧ prnResampled sv n (k + 1) = prn sv i ∧
      k * 1023 / n = i ∧ (k + 1) * 1023 / n = i)

/-! ### Acquisition (41_acquire.md) -/

/-- R111: while capturing, an accepted sample is stored at `count`, every other cell reads as before, the first one sets
`start`, and the one that fills the window makes it valid; while not capturing nothing changes. -/
def Obligations.CaptureStoresSample : Prop :=
  ∀ (w : Win) (n : Index) (x : Cplx),
    (w.capturing = false → w.capture n x = w) ∧
    (w.capturing = true →
      (∀ p, (w.capture n x).data.read p = if p = w.count then some x else w.data.read p) ∧
      (w.capture n x).count = w.count + 1 ∧ (w.capture n x).start = (if w.count = 0 then n else w.start) ∧
      (w.capture n x).fs = w.fs ∧ (w.capture n x).n = w.n ∧ (w.capture n x).k = w.k ∧
      (w.count + 1 = w.k * w.n → (w.capture n x).capturing = false ∧ (w.capture n x).valid = true) ∧
      (w.count + 1 ≠ w.k * w.n → (w.capture n x).capturing = true ∧ (w.capture n x).valid = w.valid))

/-- R115, whole: the bins are the multiples of the step within ±R, ascending, 0 Hz among them; 51 bins warm and 101 cold
with the reset values; the corner cases. -/
def Obligations.DopplerBinsAreMultiplesOfStep : Prop :=
  (∀ (range step : Nat), 1 ≤ step →
    binCount range step = 2 * (range / step) + 1 ∧
    (∀ b, binFreq range step b = ((b : Int) - (range / step : Nat)) * step) ∧
    (∀ f : Int, (∃ b, b < binCount range step ∧ binFreq range step b = f) ↔ ((step : Int) ∣ f ∧ |f| ≤ range)) ∧
    (∀ b b', b < b' → binFreq range step b < binFreq range step b') ∧
    (range < step → (List.range (binCount range step)).map (binFreq range step) = [0])) ∧
  (binCount 5000 200 = 51 ∧ binFreq 5000 200 0 = -5000 ∧ binFreq 5000 200 50 = 5000) ∧
  (binCount 10000 200 = 101 ∧ binFreq 10000 200 0 = -10000 ∧ binFreq 10000 200 100 = 10000) ∧
  (List.range (binCount 500 200)).map (binFreq 500 200) = [-400, -200, 0, 200, 400]

/-- R116 to R118: every entry of the array is the power of its bin and code phase, one row per bin, one entry per phase. -/
def Obligations.PowerGridHoldsEveryPower : Prop :=
  ∀ (nm : Numerics) (w : Win) (code : Nat → Int) (range step : Nat) (p : List (List Scalar)),
    powerGrid nm w code range step = some p →
    p.length = binCount range step ∧ (∀ row ∈ p, row.length = w.n) ∧
    ∀ b m, b < binCount range step → m < w.n →
      ∃ v, gridEntry p b m = some v ∧ power nm w code (binFreq range step b) m = some v

/-- R117 and R118 over a `NUM` without exceptions: a power is the sum over the blocks of the squared magnitude of the
circular correlation of the mixed block with the code. -/
def Obligations.PowerIsSumOfSquaredCorrelations : Prop :=
  ∀ (nm : Numerics) (w : Win) (code : Nat → Int) (f : Int) (m : Nat), unboundedNumerics nm → w.fs ≠ 0 →
    let ph (p : Nat) : Scalar := -((f : Rat) * p) / w.fs
    let re (k n : Nat) : Scalar :=
      let p := k * w.n + (n + m) % w.n
      (w.sampleAt p).re * nm.cos2pi (ph p) - (w.sampleAt p).im * nm.sin2pi (ph p)
    let im (k n : Nat) : Scalar :=
      let p := k * w.n + (n + m) % w.n
      (w.sampleAt p).re * nm.sin2pi (ph p) + (w.sampleAt p).im * nm.cos2pi (ph p)
    power nm w code f m = some (∑ k ∈ Finset.range w.k,
      ((∑ n ∈ Finset.range w.n, re k n * code n) ^ 2 + (∑ n ∈ Finset.range w.n, im k n * code n) ^ 2))

/-- R118: negating the code leaves every power, and multiplying every sample of the window by a complex constant `a`
multiplies it by `|a|²`, over a `NUM` without exceptions. -/
def Obligations.PowerInvariances : Prop :=
  ∀ (nm : Numerics) (w : Win) (code : Nat → Int) (f : Int) (m : Nat), unboundedNumerics nm →
    power nm w (fun n => -code n) f m = power nm w code f m ∧
    ∀ (w' : Win) (a : Cplx), w'.fs = w.fs → w'.n = w.n → w'.k = w.k →
      (∀ p, p < w.k * w.n → (w'.sampleAt p).re = a.re * (w.sampleAt p).re - a.im * (w.sampleAt p).im ∧
        (w'.sampleAt p).im = a.re * (w.sampleAt p).im + a.im * (w.sampleAt p).re) →
      ∀ v, power nm w code f m = some v → power nm w' code f m = some ((a.re ^ 2 + a.im ^ 2) * v)

/-- R119: the reported peak is an entry of the array, none is greater, and every entry before it, bin ascending then phase
ascending, is smaller. -/
def Obligations.PeakIsFirstMaximum : Prop :=
  ∀ (nm : Numerics) (thr : Scalar) (p : List (List Scalar)) (o : SearchResult), decideSearch nm thr p = some o →
    gridEntry p o.cell.bin o.cell.phase = some o.cell.val ∧
    ∀ b m v, gridEntry p b m = some v →
      v ≤ o.cell.val ∧ ((b < o.cell.bin ∨ (b = o.cell.bin ∧ m < o.cell.phase)) → v < o.cell.val)

/-- R120 and R121: `second` is the greatest entry of the other bins, 0 where there is none; the search succeeds exactly
when the peak exceeds threshold times `second`; `peak_snr_db` is defined where both are positive. -/
def Obligations.SecondPeakAndDecision : Prop :=
  ∀ (nm : Numerics) (thr : Scalar) (p : List (List Scalar)) (o : SearchResult), decideSearch nm thr p = some o →
    (∀ b m v, b ≠ o.cell.bin → gridEntry p b m = some v → v ≤ o.second) ∧
    ((∃ b m, b ≠ o.cell.bin ∧ gridEntry p b m = some o.second) ∨
      ((∀ b m v, gridEntry p b m = some v → b = o.cell.bin) ∧ o.second = 0)) ∧
    (o.ok = true ↔ thr * o.second < o.cell.val) ∧
    (0 < o.second → 0 < o.cell.val → o.snr = some (10 * nm.log10 (o.cell.val / o.second))) ∧
    (o.second = 0 ∨ o.cell.val = 0 → o.snr = none)

/-- R119's corner case, vector V18: over a `NUM` without exceptions a window of zero samples gives peak 0 at bin 0 and
phase 0, second peak 0, a failed search and no defined `peak_snr_db`. -/
def Obligations.ZeroWindowSearchFails : Prop :=
  ∀ (nm : Numerics) (w : Win) (a : Acq), unboundedNumerics nm → 0 < w.n → 0 < w.fs →
    (∀ p, p < w.k * w.n → w.sampleAt p = { re := 0, im := 0 }) →
    search nm w a = some { cell := { bin := 0, phase := 0, val := 0 }, second := 0, ok := false, snr := none }

/-- R114: where `AcqFinish` is enabled it searches the latched window with the latched SV's code, range, step and threshold
(R115 to R121); with a result it writes the result registers and emits one REPORT and one EVENT, an undefined
`peak_snr_db` being any value (log entry 7). A numeric exception latches Fault(4) with its ERROR event and no REPORT (R204,
R208), frees the result registers (log entry 7) and, as log entry 20 reads it, keeps busy, done and the latches. Where it
is not enabled nothing happens. -/
def Obligations.AcqFinishReportsResult : Prop :=
  (∀ (nm : Numerics) (w : Win) (a : Acq),
    search nm w a = (powerGrid nm w (prnResampled a.sv w.n) a.range a.step).bind (decideSearch nm a.thr)) ∧
  ∀ (nm : Numerics) (s : State),
    ((s.acq.busy = false ∨ s.fault.set = true) → acqFinish nm s = s) ∧
    (∀ o, s.acq.busy = true → s.fault.set = false → search nm s.win s.acq = some o →
      ∃ snr, (∀ d, o.snr = some d → snr = d) ∧
        (acqFinish nm s) = { s with
          acq := { s.acq with
            busy := false, done := true
            res := { status := if o.ok = true then .ok else .failed, sv := s.acq.sv
                     doppler := BitVec.ofInt 32 (binFreq s.acq.range s.acq.step o.cell.bin)
                     cphase := BitVec.ofNat 32 o.cell.phase, aidx := s.win.start } }
          reports := s.reports ++ [{ ok := o.ok, svId := s.acq.sv
                                     dopplerHz := binFreq s.acq.range s.acq.step o.cell.bin
                                     codePhase := o.cell.phase, peak := o.cell.val, second := o.second
                                     peakSnrDb := snr, acquiredAt := s.win.start }]
          events := s.events ++ [if o.ok = true
            then { kind := .acquired, svId := s.acq.sv, stage := .acquirer, err := .none, t := s.win.start }
            else { kind := .error, svId := s.acq.sv, stage := .acquirer, err := .acquisitionFailed, t := s.win.start }]
          freeCount := (acqFinish nm s).freeCount }) ∧
    (s.acq.busy = true → s.fault.set = false → search nm s.win s.acq = none →
      ∃ res, acqFinish nm s = { s with
        fault := { set := true, code := 4 }
        acq := { s.acq with res := res }
        events := s.events ++
          [{ kind := .error, svId := s.acq.sv, stage := .acquirer, err := .internalInvariant, t := s.win.start }]
        freeCount := (acqFinish nm s).freeCount })

/-- R122: `AcqFinish` touches neither the window, the channels nor the configuration, and two searches with the same
operand latches over the same window report the same, whatever else the two states hold, the earlier results among it; but
for an undefined `peak_snr_db` (log entry 7). -/
def Obligations.AcqFinishIsPure : Prop :=
  ∀ (nm : Numerics) (s t : State),
    (acqFinish nm s = { s with
      acq := (acqFinish nm s).acq, fault := (acqFinish nm s).fault, reports := (acqFinish nm s).reports
      events := (acqFinish nm s).events, freeCount := (acqFinish nm s).freeCount }) ∧
    (s.win = t.win → s.acq.busy = t.acq.busy → s.acq.sv = t.acq.sv → s.acq.range = t.acq.range →
      s.acq.step = t.acq.step → s.acq.thr = t.acq.thr → s.fault = t.fault → ∃ rs rs' es,
      (acqFinish nm s).reports = s.reports ++ rs ∧ (acqFinish nm t).reports = t.reports ++ rs' ∧
      rs.map (fun r => { r with peakSnrDb := 0 }) = rs'.map (fun r => { r with peakSnrDb := 0 }) ∧
      (acqFinish nm s).events = s.events ++ es ∧ (acqFinish nm t).events = t.events ++ es ∧
      (acqFinish nm s).fault = (acqFinish nm t).fault ∧
      (s.acq.busy = true → (acqFinish nm s).fault.set = false → (acqFinish nm s).acq = (acqFinish nm t).acq))

/-- R8's liveness, as the model's schedule shows it (log entry 2): with nothing else scheduled, one step finishes a running
search, or latches a numeric exception. -/
def Obligations.RunningSearchFinishes : Prop :=
  ∀ s : State, s.inputs = [] → s.acq.busy = true → s.fault.set = false →
    ∃ t, step s = .next t ∧ ((t.acq.busy = false ∧ t.acq.done = true) ∨ t.fault = { set := true, code := 4 })

/-! ### Tracking (42_track.md) -/

/-- R142: the first sample after TSEED fixes `cp` as the real remainder of `d · rate / Fs` by 1023, with `estart` its index;
nothing else of the record changes; over a `NUM` without exceptions it always completes. -/
def Obligations.FirstSampleFixesCodePhase : Prop :=
  ∀ (nm : Numerics) (n : Index) (C : Channel), C.phasePending = true →
    (∀ C', fixPhase nm n C = some C' →
      C' = { C with cp := C'.cp, estart := n, phasePending := false } ∧ 0 ≤ C'.cp ∧ C'.cp < 1023 ∧
      ∃ k : Int, (((n.toNat : Int) - C.aidx.toNat - C.cpSeed : Int) : Rat) * C.rate / C.fs = C'.cp + 1023 * k) ∧
    (unboundedNumerics nm → C.fs ≠ 0 → ∃ C', fixPhase nm n C = some C')

/-- R147 to R151: the channel step, in its order. A pending code phase is fixed first; then wipe-off, replicas,
accumulators, both NCOs, and the number of wraps of the code; then the dump exactly where the code wrapped, and no record
otherwise; a numeric exception before the dump leaves no record at all (R208). -/
def Obligations.SampleAdvancesChannel : Prop :=
  (∀ (nm : Numerics) (n : Index) (x : Cplx) (C : Channel), unboundedNumerics nm → C.fs ≠ 0 → C.phasePending = false →
    let c := nm.cos2pi (-C.theta)
    let s := nm.sin2pi (-C.theta)
    let yi := x.re * c - x.im * s
    let yq := x.re * s + x.im * c
    let chip (o : Rat) : Rat := prn C.sv ((C.cp + o).floor % 1023).toNat
    let cp' := C.cp + C.rate / C.fs
    let th' := C.theta + C.f / C.fs
    trackSample nm n x C = some ({ C with
      ie := C.ie + yi * chip (1 / 2), qe := C.qe + yq * chip (1 / 2)
      ip := C.ip + yi * chip 0, qp := C.qp + yq * chip 0
      il := C.il + yi * chip (-1 / 2), ql := C.ql + yq * chip (-1 / 2)
      theta := th' - th'.floor
      cp := cp' - 1023 * (cp' / 1023).floor }, (cp' / 1023).floor)) ∧
  ∀ (nm : Numerics) (n : Index) (x : Cplx) (C : Channel),
    (C.phasePending = true → trackSample nm n x C = (fixPhase nm n C).bind (trackSample nm n x)) ∧
    (trackSample nm n x C = none → chanStep nm n x C = { prompts := [], events := [], chan := none }) ∧
    ∀ D w, trackSample nm n x C = some (D, w) →
      (1 ≤ w → chanStep nm n x C = dump nm n D) ∧
      (w < 1 → chanStep nm n x C = { prompts := [], events := [], chan := some D })

/-- R149: within a period the prompt chip is the one `cp` stands on, and at the edges the early chip wraps to chip 0 and the
late chip to chip 1022. -/
def Obligations.ReplicaChipsWrapAtTheEdges : Prop :=
  ∀ (sv : BitVec 6) (cp : Scalar), 0 ≤ cp → cp < 1023 →
    (∀ i : Nat, (i : Rat) ≤ cp → cp < (i : Rat) + 1 → chipAt sv cp = prn sv i) ∧
    (cp < 1 / 2 → chipAt sv (cp - 1 / 2) = prn sv 1022) ∧
    (2045 / 2 ≤ cp → chipAt sv (cp + 1 / 2) = prn sv 0) ∧
    (∀ i : Nat, i < 1022 → (i : Rat) + 1 / 2 ≤ cp → cp < (i : Rat) + 3 / 2 →
      chipAt sv (cp + 1 / 2) = prn sv (i + 1) ∧ chipAt sv (cp - 1 / 2) = prn sv i)

/-- R153: the four cases of the phase discriminator, and that neither a 180° flip of `(I, Q)` with `I ≠ 0` nor a positive
scaling is seen. -/
def Obligations.PhaseDiscriminatorIsCostas : Prop :=
  ∀ (nm : Numerics) (i q : Scalar), unboundedNumerics nm →
    (i ≠ 0 → phaseError nm i q = some (nm.atan (q / i)) ∧ phaseError nm (-i) (-q) = phaseError nm i q) ∧
    (i = 0 → 0 < q → phaseError nm i q = some (nm.pi / 2)) ∧ (i = 0 → q < 0 → phaseError nm i q = some (-nm.pi / 2)) ∧
    (i = 0 → q = 0 → phaseError nm i q = some 0) ∧
    ∀ a : Scalar, 0 < a → phaseError nm (a * i) (a * q) = phaseError nm i q

/-- R154 and R155: the loop filter and the carrier NCO, with `T = 1 ms` and `2ζ = 1.414`; nothing else of the record
changes; a channel seeded with PLL_BW 0 stays at the seed frequency. -/
def Obligations.CarrierLoopEquations : Prop :=
  ∀ (nm : Numerics) (C C' : Channel) (e : Scalar), phaseError nm C.ip C.qp = some e → carrierLoop nm C = some C' →
    C' = { C with
      pint := C.pint + C.wn ^ 2 * (1 / 1000) * e
      f := C.fSeed + (C.pint + C.wn ^ 2 * (1 / 1000) * e + 1414 / 1000 * C.wn * e) / (2 * nm.pi) } ∧
    (C.wn = 0 → C.pint = 0 → C'.f = C.fSeed ∧ C'.pint = 0)

/-- R156 and R157: the code discriminator lies in [−1, 1] (that a root is not negative: log entry 1) and is 0 where both
magnitudes are; the code NCO's rate is the carrier-aided rate plus `gdll` times it; nothing else of the record changes. -/
def Obligations.CodeLoopEquations : Prop :=
  ∀ (nm : Numerics) (C : Channel),
    (∀ d, codeError nm C = some d → -1 ≤ d ∧ d ≤ 1 ∧
      (let e := nm.sqrt (C.ie * C.ie + C.qe * C.qe)
       let l := nm.sqrt (C.il * C.il + C.ql * C.ql)
       (0 < e + l → d = (e - l) / (e + l)) ∧ (e + l = 0 → d = 0))) ∧
    (∀ C' d, codeError nm C = some d → codeLoop nm C = some C' →
      C' = { C with rate := 1023000 * (1 + C.f / 1575420000) + C.gdll * d })

/-- R160: the statistic over the newest 200 prompts is below exactly when `SI² < 200 · thr · SQ2`; a threshold 0 and a
window without any Q never read as below. -/
def Obligations.LockStatistic : Prop :=
  ∀ (nm : Numerics) (thr : Scalar) (buf : List Cplx) (b : Bool), lockBelow nm thr buf = some b →
    let w := buf.drop (buf.length - 200)
    (b = true ↔ (w.map Cplx.re).sum ^ 2 < 200 * thr * (w.map fun x => x.im ^ 2).sum) ∧
    (thr = 0 → b = false) ∧ ((w.map fun x => x.im ^ 2).sum = 0 → b = false)

/-- R152: the alignment dump discards the partial period, emits nothing and enters PULL_IN; every later dump emits exactly
one PROMPT with the epoch's first index and the prompt sums, and one with a result counts the epoch, pushes the prompt (R32:
a full buffer drops its oldest entry), runs the carrier loop and then, with the `f` just written, the code loop (R155,
R157), and clears the accumulators. That the PROMPT stands also where the loops end in a numeric exception (R208) is the
model's reading, log entry 11. -/
def Obligations.DumpEmitsOnePrompt : Prop :=
  ∀ (nm : Numerics) (n : Index) (C : Channel),
    (C.aligned = false → dump nm n C = {
      prompts := [], events := []
      chan := some { C with aligned := true, st := .pullIn, ie := 0, qe := 0, ip := 0, qp := 0, il := 0, ql := 0,
                            estart := n + 1 } }) ∧
    (C.aligned = true →
      (dump nm n C).prompts = [{ svId := C.sv, tRx := C.estart, i := C.ip, q := C.qp }] ∧
      ∀ C', (dump nm n C).chan = some C' →
        C'.epochs = C.epochs + 1 ∧
        (C.pbuf.length < 1000 → C'.pbuf = C.pbuf ++ [{ re := C.ip, im := C.qp }]) ∧
        (C.pbuf.length = 1000 → C'.pbuf = C.pbuf.tail ++ [{ re := C.ip, im := C.qp }]) ∧
        (C'.ie = 0 ∧ C'.qe = 0 ∧ C'.ip = 0 ∧ C'.qp = 0 ∧ C'.il = 0 ∧ C'.ql = 0) ∧ C'.estart = n + 1 ∧
        C'.sv = C.sv ∧ C'.fs = C.fs ∧ C'.theta = C.theta ∧ C'.cp = C.cp ∧ C'.aligned = true ∧
        C'.phasePending = C.phasePending ∧ C'.wn = C.wn ∧ C'.gdll = C.gdll ∧ C'.thr = C.thr ∧ C'.fSeed = C.fSeed ∧
        C'.cpSeed = C.cpSeed ∧ C'.aidx = C.aidx ∧
        ∃ C1 C2, carrierLoop nm C = some C1 ∧ codeLoop nm C1 = some C2 ∧
          C'.pint = C2.pint ∧ C'.f = C2.f ∧ C'.rate = C2.rate)

/-- R159 and R160: in a dump with a result a channel in PULL_IN counts and locks at the 500th, one in LOCKED counts the
dumps below threshold in a row and is demoted at the 2000th, each with its one event; no other dump emits an event. -/
def Obligations.DumpRunsStateMachine : Prop :=
  ∀ (nm : Numerics) (n : Index) (C C' : Channel), C.aligned = true → (dump nm n C).chan = some C' →
    (C.st = .pullIn → C'.pullCnt = C.pullCnt + 1 ∧
      (C.pullCnt + 1 = 500 → C'.st = .locked ∧ C'.belowCnt = 0 ∧ (dump nm n C).events =
        [{ kind := .locked, svId := C.sv, stage := .tracker, err := .none, t := n }]) ∧
      (C.pullCnt + 1 ≠ 500 → C'.st = .pullIn ∧ C'.belowCnt = C.belowCnt ∧ (dump nm n C).events = [])) ∧
    (C.st = .locked → ∃ b, lockBelow nm C.thr (pushPrompt C.pbuf { re := C.ip, im := C.qp }) = some b ∧
      C'.belowCnt = (if b = true then C.belowCnt + 1 else 0) ∧ C'.pullCnt = C.pullCnt ∧
      (C'.belowCnt = 2000 → C'.st = .unlocked ∧ (dump nm n C).events =
        [{ kind := .unlocked, svId := C.sv, stage := .tracker, err := .lockLost, t := n }]) ∧
      (C'.belowCnt ≠ 2000 → C'.st = .locked ∧ (dump nm n C).events = []))

/-! ### Sample port (43_host.md R190, 20_memory.md R62) -/

/-- R146, R190, R212: with no fault set the first sample, and one with the expected index, is accepted. After an accepted
sample that raised no fault each channel's record is a function of its own record and the sample alone, an inactive one is
untouched, the records go out in ascending channel number, and nothing else changes but the index counter and the window. -/
def Obligations.ChannelsRunIndependently : Prop :=
  ∀ (nm : Numerics) (n : Index) (x : Cplx) (s : State),
    (s.fault.set = false → (s.sidxValid = true → n = s.sidx) → sampleStep nm n x s = acceptSample nm n x s) ∧
    ((acceptSample nm n x s).fault.set = false →
      (∀ c : Chan, some (acceptSample nm n x s).ch[c] =
        if s.ch[c].active = true then (chanStep nm n x s.ch[c]).chan else some s.ch[c]) ∧
      acceptSample nm n x s = { s with
        sidx := n + 1, sidxValid := true, win := s.win.capture n x
        ch := (acceptSample nm n x s).ch
        prompts := s.prompts ++ (List.finRange nch).flatMap fun c =>
          if s.ch[c].active = true then (chanStep nm n x s.ch[c]).prompts else []
        events := s.events ++ (List.finRange nch).flatMap fun c =>
          if s.ch[c].active = true then (chanStep nm n x s.ch[c]).events else [] })

/-- R208 with R204: the first channel whose step has no number latches Fault(4) with its ERROR event last. The channels
before it have done their work and emitted their records, its own records go out before the fault, and the channels after
it do nothing, emit nothing; SIDX and the capture are those of an accepted sample, and nothing else changes but the record
of that channel, which is free (log entry 7). That the round ends there is log entry 11. -/
def Obligations.NumericExceptionFaultsChannel : Prop :=
  ∀ (nm : Numerics) (n : Index) (x : Cplx) (s : State) (c : Chan), s.fault.set = false → s.ch[c].active = true →
    (chanStep nm n x s.ch[c]).chan = none →
    (∀ d : Chan, d < c → s.ch[d].active = true → (chanStep nm n x s.ch[d]).chan ≠ none) →
    (∀ d : Chan, d < c → some (acceptSample nm n x s).ch[d] =
      if s.ch[d].active = true then (chanStep nm n x s.ch[d]).chan else some s.ch[d]) ∧
    (∀ d : Chan, c < d → (acceptSample nm n x s).ch[d] = s.ch[d]) ∧
    acceptSample nm n x s = { s with
      sidx := n + 1, sidxValid := true, win := s.win.capture n x
      ch := (acceptSample nm n x s).ch
      fault := { set := true, code := 4 }
      prompts := s.prompts ++ (List.finRange nch).flatMap fun d =>
        if d ≤ c ∧ s.ch[d].active = true then (chanStep nm n x s.ch[d]).prompts else []
      events := (s.events ++ (List.finRange nch).flatMap fun d =>
        if d < c ∧ s.ch[d].active = true then (chanStep nm n x s.ch[d]).events else []) ++
          [{ kind := .error, svId := s.ch[c].sv, stage := .tracker, err := .internalInvariant, t := n }]
      freeCount := (acceptSample nm n x s).freeCount }

/-- R190, R231: a sample with the expected index, or the first one, with no channel active, only advances SIDX and feeds a
running capture. -/
def Obligations.SampleWithoutChannels : Prop :=
  ∀ (nm : Numerics) (n : Index) (x : Cplx) (s : State), s.fault.set = false → (s.sidxValid = true → n = s.sidx) →
    (∀ c : Chan, s.ch[c].active = false) →
    sampleStep nm n x s = { s with sidx := n + 1, sidxValid := true, win := s.win.capture n x }

/-- R190, R161: a gap emits the overrun event, unlocks every active channel in ascending order with its own event, abandons
a running capture, moves SIDX past the sample, and changes nothing else. -/
def Obligations.GapUnlocksChannels : Prop :=
  ∀ (nm : Numerics) (n : Index) (x : Cplx) (s : State), s.fault.set = false → s.sidxValid = true → s.sidx < n →
    (∀ c : Chan, (sampleStep nm n x s).ch[c] =
      if s.ch[c].active = true then { s.ch[c] with st := .unlocked } else s.ch[c]) ∧
    sampleStep nm n x s = { s with
      ch := (sampleStep nm n x s).ch
      sidx := n + 1
      win := if s.win.capturing = true then { s.win with capturing := false, valid := false, count := 0 } else s.win
      events := s.events ++ { kind := .error, svId := 0, stage := .source, err := .sampleSourceOverrun, t := n } ::
        (List.finRange nch).flatMap (fun c => if s.ch[c].active = true then
          [{ kind := .unlocked, svId := s.ch[c].sv, stage := .tracker, err := .sampleSourceOverrun, t := n }] else []) }

/-- R190, R204: an index below the expected one latches Fault(4) with one ERROR event stamped with the index; SIDX and
everything else stay. -/
def Obligations.BackwardIndexFaults : Prop :=
  ∀ (nm : Numerics) (n : Index) (x : Cplx) (s : State), s.fault.set = false → s.sidxValid = true → n < s.sidx →
    sampleStep nm n x s = { s with
      fault := { set := true, code := 4 }
      events := s.events ++ [{ kind := .error, svId := 0, stage := .source, err := .internalInvariant, t := n }] }

/-- R62: SAMPLE_FMT[1:0] selects one of the four formats of the raw front end, stated for every `uint8_iq` bias: I first;
format 3 and a component that is an infinity or a NaN raise their fault (R204) and drop the sample. That a dropped sample
leaves SIDX, the capture and the channels, whatever its index, is the model's reading, log entry 10. -/
def Obligations.RawSampleFormats : Prop :=
  (∀ (bias : Scalar) (b : BitVec 64),
    decodeRawWith bias 0 b = .sample { re := ((rawByte b 0).toInt : Rat), im := ((rawByte b 1).toInt : Rat) } ∧
    decodeRawWith bias 1 b = .sample { re := ((rawByte b 0).toNat : Rat) - bias, im := ((rawByte b 1).toNat : Rat) - bias } ∧
    decodeRawWith bias 3 b = .bad .configInvalid ∧
    (∀ i q, float32Value (b.extractLsb' 0 32) = some i → float32Value (b.extractLsb' 32 32) = some q →
      decodeRawWith bias 2 b = .sample { re := i, im := q }) ∧
    ((float32Value (b.extractLsb' 0 32) = none ∨ float32Value (b.extractLsb' 32 32) = none) →
      decodeRawWith bias 2 b = .bad .internalInvariant)) ∧
  (∀ w : Word, float32Value w = none ↔ w.extractLsb' 23 8 = 255#8) ∧
  (∀ (sgn : Bool) (e : BitVec 8) (m : BitVec 23), e ≠ 255#8 →
    float32Value (BitVec.ofBool sgn ++ e ++ m) = some ((if sgn then -1 else 1) *
      (if e = 0#8 then (m.toNat : Rat) / 2 ^ 149 else ((2 ^ 23 + m.toNat : Nat) : Rat) * 2 ^ ((e.toNat : Int) - 150)))) ∧
  (∀ (s : State) (b : BitVec 64), decodeRaw s b = decodeRawWith Config.u8Bias (s.regs.sampleFmt.extractLsb' 0 2) b) ∧
  ∀ (nm : Numerics) (n : Index) (b : BitVec 64) (s : State),
    (∀ x, s.fault.set = false → decodeRaw s b = .sample x → rawStep nm n b s = sampleStep nm n x s) ∧
    (∀ k, s.fault.set = false → decodeRaw s b = .bad k → rawStep nm n b s = { s with
      fault := { set := true, code := if k = .configInvalid then 2 else 4 }
      events := s.events ++ [{ kind := .error, svId := 0, stage := .source
                               err := if k = .configInvalid then .configInvalid else .internalInvariant, t := n }] })

/-! ### The whole machine -/

/-- R40: the reset state has every value of the table, its traces are empty, and the three invariants hold of it. -/
def Obligations.ResetIsSound : Prop :=
  AtReset State.reset ∧ State.reset.prompts = [] ∧ State.reset.reports = [] ∧ State.reset.events = [] ∧
  WindowSound State.reset ∧ TrackSound State.reset ∧ LatchSound State.reset

/-- R41: a step keeps the window memory canonical, never capturing and valid at once, its counts in bounds, and a running
search on a valid window. -/
def Obligations.StepKeepsWindowSound : Prop :=
  ∀ s t : State, WindowSound s → step s = .next t → WindowSound t

/-- R41: a step keeps every channel's record sound and no two active channels on one SV, while no fault is set. -/
def Obligations.StepKeepsTrackSound : Prop :=
  ∀ s t : State, TrackSound s → step s = .next t → TrackSound t

/-- R23, R35: a step keeps the fault code 0 when clear, 2 or 4 when set, and the reserved bits of the registers 0. -/
def Obligations.StepKeepsLatchSound : Prop :=
  ∀ s t : State, LatchSound s → step s = .next t → LatchSound t

/-- R34: a record, once emitted, never changes and is never removed, by no step of any agent. -/
def Obligations.TracesOnlyGrow : Prop :=
  ∀ s t : State, step s = .next t → s.prompts <+: t.prompts ∧ s.reports <+: t.reports ∧ s.events <+: t.events

/-- R158: "No other transition exists": a step that leaves no fault moves a channel's state only as the table says. -/
def Obligations.ChannelTransitionsFollowTable : Prop :=
  ∀ s t : State, TrackSound s → s.fault.set = false → step s = .next t → t.fault.set = false →
    ∀ c : Chan, s.ch[c].st.mayBecome t.ch[c].st = true

/-- R205: in the fault state a step changes nothing but what register accesses change and CMDSTAT (9), unless it is the
exact SRESET word; samples and the engine's turn are ignored; reads and writes of registers work as always. -/
def Obligations.FaultStateIsFrozen : Prop :=
  ∀ s : State, s.fault.set = true →
    (∀ rest, s.inputs ≠ .write 0x04 32 0x7F000000#32 :: rest) →
    (∃ t, step s = .next t ∧ t = { s with
      regs := t.regs, cmdStat := t.cmdStat, sidxHiLatch := t.sidxHiLatch, hostResp := t.hostResp, inputs := t.inputs } ∧
      (t.cmdStat = s.cmdStat ∨ t.cmdStat = .faulted)) ∧
    (∀ (nm : Numerics) (n : Index) (x : Cplx) (b : BitVec 64),
      sampleStep nm n x s = s ∧ rawStep nm n b s = s ∧ acqFinish nm s = s) ∧
    (∀ w : Word, w ≠ 0x7F000000#32 → execWord w s = .next { s with cmdStat := .faulted }) ∧
    ∀ (nm : Numerics) (r : RegName) (v : Word),
      agentStep nm (.read r.offset 32) s = .next { s with
        hostResp := .data (regValue s r)
        sidxHiLatch := if r = .sidxLo then highWord s.sidx else s.sidxHiLatch } ∧
      (r.access = .rw → agentStep nm (.write r.offset 32 v) s = .next { s with
        regs := s.regs.store r v, hostResp := .done })

/-- R207: the only step that clears the fault latch is the SRESET command, and no step changes the code of a set latch. -/
def Obligations.OnlySresetLeavesFault : Prop :=
  ∀ s t : State, s.fault.set = true → step s = .next t →
    (t.fault = s.fault ∨ (t.fault.set = false ∧ ∃ rest, s.inputs = .write 0x04 32 0x7F000000#32 :: rest))
end

