-- ==== Sys2Proof/Laws/State.lean ====
section
/-! SUPPORT. One lemma per field per named update of the state, true by `rfl`, so that no proof unfolds a record update. -/

namespace Sys2Proof.Machine

/-! ### `emitPrompts` -/

@[simp] theorem emitPrompts_regs (s : State) (ps : List Prompt) : (s.emitPrompts ps).regs = s.regs := rfl
@[simp] theorem emitPrompts_cmdStat (s : State) (ps : List Prompt) : (s.emitPrompts ps).cmdStat = s.cmdStat := rfl
@[simp] theorem emitPrompts_sidx (s : State) (ps : List Prompt) : (s.emitPrompts ps).sidx = s.sidx := rfl
@[simp] theorem emitPrompts_sidxValid (s : State) (ps : List Prompt) : (s.emitPrompts ps).sidxValid = s.sidxValid := rfl
@[simp] theorem emitPrompts_sidxHiLatch (s : State) (ps : List Prompt) : (s.emitPrompts ps).sidxHiLatch = s.sidxHiLatch := rfl
@[simp] theorem emitPrompts_win (s : State) (ps : List Prompt) : (s.emitPrompts ps).win = s.win := rfl
@[simp] theorem emitPrompts_acq (s : State) (ps : List Prompt) : (s.emitPrompts ps).acq = s.acq := rfl
@[simp] theorem emitPrompts_ch (s : State) (ps : List Prompt) : (s.emitPrompts ps).ch = s.ch := rfl
@[simp] theorem emitPrompts_fault (s : State) (ps : List Prompt) : (s.emitPrompts ps).fault = s.fault := rfl
@[simp] theorem emitPrompts_prompts (s : State) (ps : List Prompt) : (s.emitPrompts ps).prompts = s.prompts ++ ps := rfl
@[simp] theorem emitPrompts_reports (s : State) (ps : List Prompt) : (s.emitPrompts ps).reports = s.reports := rfl
@[simp] theorem emitPrompts_events (s : State) (ps : List Prompt) : (s.emitPrompts ps).events = s.events := rfl
@[simp] theorem emitPrompts_inputs (s : State) (ps : List Prompt) : (s.emitPrompts ps).inputs = s.inputs := rfl
@[simp] theorem emitPrompts_hostResp (s : State) (ps : List Prompt) : (s.emitPrompts ps).hostResp = s.hostResp := rfl
@[simp] theorem emitPrompts_freeCount (s : State) (ps : List Prompt) : (s.emitPrompts ps).freeCount = s.freeCount := rfl

/-! ### `emitReport` -/

@[simp] theorem emitReport_regs (s : State) (r : Report) : (s.emitReport r).regs = s.regs := rfl
@[simp] theorem emitReport_cmdStat (s : State) (r : Report) : (s.emitReport r).cmdStat = s.cmdStat := rfl
@[simp] theorem emitReport_sidx (s : State) (r : Report) : (s.emitReport r).sidx = s.sidx := rfl
@[simp] theorem emitReport_sidxValid (s : State) (r : Report) : (s.emitReport r).sidxValid = s.sidxValid := rfl
@[simp] theorem emitReport_sidxHiLatch (s : State) (r : Report) : (s.emitReport r).sidxHiLatch = s.sidxHiLatch := rfl
@[simp] theorem emitReport_win (s : State) (r : Report) : (s.emitReport r).win = s.win := rfl
@[simp] theorem emitReport_acq (s : State) (r : Report) : (s.emitReport r).acq = s.acq := rfl
@[simp] theorem emitReport_ch (s : State) (r : Report) : (s.emitReport r).ch = s.ch := rfl
@[simp] theorem emitReport_fault (s : State) (r : Report) : (s.emitReport r).fault = s.fault := rfl
@[simp] theorem emitReport_prompts (s : State) (r : Report) : (s.emitReport r).prompts = s.prompts := rfl
@[simp] theorem emitReport_reports (s : State) (r : Report) : (s.emitReport r).reports = s.reports ++ [r] := rfl
@[simp] theorem emitReport_events (s : State) (r : Report) : (s.emitReport r).events = s.events := rfl
@[simp] theorem emitReport_inputs (s : State) (r : Report) : (s.emitReport r).inputs = s.inputs := rfl
@[simp] theorem emitReport_hostResp (s : State) (r : Report) : (s.emitReport r).hostResp = s.hostResp := rfl
@[simp] theorem emitReport_freeCount (s : State) (r : Report) : (s.emitReport r).freeCount = s.freeCount := rfl

/-! ### `emitEvents` -/

@[simp] theorem emitEvents_regs (s : State) (es : List Event) : (s.emitEvents es).regs = s.regs := rfl
@[simp] theorem emitEvents_cmdStat (s : State) (es : List Event) : (s.emitEvents es).cmdStat = s.cmdStat := rfl
@[simp] theorem emitEvents_sidx (s : State) (es : List Event) : (s.emitEvents es).sidx = s.sidx := rfl
@[simp] theorem emitEvents_sidxValid (s : State) (es : List Event) : (s.emitEvents es).sidxValid = s.sidxValid := rfl
@[simp] theorem emitEvents_sidxHiLatch (s : State) (es : List Event) : (s.emitEvents es).sidxHiLatch = s.sidxHiLatch := rfl
@[simp] theorem emitEvents_win (s : State) (es : List Event) : (s.emitEvents es).win = s.win := rfl
@[simp] theorem emitEvents_acq (s : State) (es : List Event) : (s.emitEvents es).acq = s.acq := rfl
@[simp] theorem emitEvents_ch (s : State) (es : List Event) : (s.emitEvents es).ch = s.ch := rfl
@[simp] theorem emitEvents_fault (s : State) (es : List Event) : (s.emitEvents es).fault = s.fault := rfl
@[simp] theorem emitEvents_prompts (s : State) (es : List Event) : (s.emitEvents es).prompts = s.prompts := rfl
@[simp] theorem emitEvents_reports (s : State) (es : List Event) : (s.emitEvents es).reports = s.reports := rfl
@[simp] theorem emitEvents_events (s : State) (es : List Event) : (s.emitEvents es).events = s.events ++ es := rfl
@[simp] theorem emitEvents_inputs (s : State) (es : List Event) : (s.emitEvents es).inputs = s.inputs := rfl
@[simp] theorem emitEvents_hostResp (s : State) (es : List Event) : (s.emitEvents es).hostResp = s.hostResp := rfl
@[simp] theorem emitEvents_freeCount (s : State) (es : List Event) : (s.emitEvents es).freeCount = s.freeCount := rfl

/-! ### `refuse` -/

@[simp] theorem refuse_regs (s : State) (code : CmdStat) : (refuse code s).regs = s.regs := rfl
@[simp] theorem refuse_cmdStat (s : State) (code : CmdStat) : (refuse code s).cmdStat = code := rfl
@[simp] theorem refuse_sidx (s : State) (code : CmdStat) : (refuse code s).sidx = s.sidx := rfl
@[simp] theorem refuse_sidxValid (s : State) (code : CmdStat) : (refuse code s).sidxValid = s.sidxValid := rfl
@[simp] theorem refuse_sidxHiLatch (s : State) (code : CmdStat) : (refuse code s).sidxHiLatch = s.sidxHiLatch := rfl
@[simp] theorem refuse_win (s : State) (code : CmdStat) : (refuse code s).win = s.win := rfl
@[simp] theorem refuse_acq (s : State) (code : CmdStat) : (refuse code s).acq = s.acq := rfl
@[simp] theorem refuse_ch (s : State) (code : CmdStat) : (refuse code s).ch = s.ch := rfl
@[simp] theorem refuse_fault (s : State) (code : CmdStat) : (refuse code s).fault = s.fault := rfl
@[simp] theorem refuse_prompts (s : State) (code : CmdStat) : (refuse code s).prompts = s.prompts := rfl
@[simp] theorem refuse_reports (s : State) (code : CmdStat) : (refuse code s).reports = s.reports := rfl
@[simp] theorem refuse_events (s : State) (code : CmdStat) : (refuse code s).events = s.events := rfl
@[simp] theorem refuse_inputs (s : State) (code : CmdStat) : (refuse code s).inputs = s.inputs := rfl
@[simp] theorem refuse_hostResp (s : State) (code : CmdStat) : (refuse code s).hostResp = s.hostResp := rfl
@[simp] theorem refuse_freeCount (s : State) (code : CmdStat) : (refuse code s).freeCount = s.freeCount := rfl

/-! ### `accept` -/

@[simp] theorem accept_regs (s : State) : (accept s).regs = s.regs := rfl
@[simp] theorem accept_cmdStat (s : State) : (accept s).cmdStat = .ok := rfl
@[simp] theorem accept_sidx (s : State) : (accept s).sidx = s.sidx := rfl
@[simp] theorem accept_sidxValid (s : State) : (accept s).sidxValid = s.sidxValid := rfl
@[simp] theorem accept_sidxHiLatch (s : State) : (accept s).sidxHiLatch = s.sidxHiLatch := rfl
@[simp] theorem accept_win (s : State) : (accept s).win = s.win := rfl
@[simp] theorem accept_acq (s : State) : (accept s).acq = s.acq := rfl
@[simp] theorem accept_ch (s : State) : (accept s).ch = s.ch := rfl
@[simp] theorem accept_fault (s : State) : (accept s).fault = s.fault := rfl
@[simp] theorem accept_prompts (s : State) : (accept s).prompts = s.prompts := rfl
@[simp] theorem accept_reports (s : State) : (accept s).reports = s.reports := rfl
@[simp] theorem accept_events (s : State) : (accept s).events = s.events := rfl
@[simp] theorem accept_inputs (s : State) : (accept s).inputs = s.inputs := rfl
@[simp] theorem accept_hostResp (s : State) : (accept s).hostResp = s.hostResp := rfl
@[simp] theorem accept_freeCount (s : State) : (accept s).freeCount = s.freeCount := rfl

/-! ### `raiseFault` -/

@[simp] theorem raiseFault_regs (s : State) (k : FatalKind) (sv : BitVec 6) (g : Stage) (t : Index) : (raiseFault k sv g t s).regs = s.regs := rfl
@[simp] theorem raiseFault_cmdStat (s : State) (k : FatalKind) (sv : BitVec 6) (g : Stage) (t : Index) : (raiseFault k sv g t s).cmdStat = s.cmdStat := rfl
@[simp] theorem raiseFault_sidx (s : State) (k : FatalKind) (sv : BitVec 6) (g : Stage) (t : Index) : (raiseFault k sv g t s).sidx = s.sidx := rfl
@[simp] theorem raiseFault_sidxValid (s : State) (k : FatalKind) (sv : BitVec 6) (g : Stage) (t : Index) : (raiseFault k sv g t s).sidxValid = s.sidxValid := rfl
@[simp] theorem raiseFault_sidxHiLatch (s : State) (k : FatalKind) (sv : BitVec 6) (g : Stage) (t : Index) : (raiseFault k sv g t s).sidxHiLatch = s.sidxHiLatch := rfl
@[simp] theorem raiseFault_win (s : State) (k : FatalKind) (sv : BitVec 6) (g : Stage) (t : Index) : (raiseFault k sv g t s).win = s.win := rfl
@[simp] theorem raiseFault_acq (s : State) (k : FatalKind) (sv : BitVec 6) (g : Stage) (t : Index) : (raiseFault k sv g t s).acq = s.acq := rfl
@[simp] theorem raiseFault_ch (s : State) (k : FatalKind) (sv : BitVec 6) (g : Stage) (t : Index) : (raiseFault k sv g t s).ch = s.ch := rfl
@[simp] theorem raiseFault_fault (s : State) (k : FatalKind) (sv : BitVec 6) (g : Stage) (t : Index) : (raiseFault k sv g t s).fault = s.fault.raise k.code := rfl
@[simp] theorem raiseFault_prompts (s : State) (k : FatalKind) (sv : BitVec 6) (g : Stage) (t : Index) : (raiseFault k sv g t s).prompts = s.prompts := rfl
@[simp] theorem raiseFault_reports (s : State) (k : FatalKind) (sv : BitVec 6) (g : Stage) (t : Index) : (raiseFault k sv g t s).reports = s.reports := rfl
@[simp] theorem raiseFault_events (s : State) (k : FatalKind) (sv : BitVec 6) (g : Stage) (t : Index) : (raiseFault k sv g t s).events = s.events ++ [faultEvent k sv g t] := rfl
@[simp] theorem raiseFault_inputs (s : State) (k : FatalKind) (sv : BitVec 6) (g : Stage) (t : Index) : (raiseFault k sv g t s).inputs = s.inputs := rfl
@[simp] theorem raiseFault_hostResp (s : State) (k : FatalKind) (sv : BitVec 6) (g : Stage) (t : Index) : (raiseFault k sv g t s).hostResp = s.hostResp := rfl
@[simp] theorem raiseFault_freeCount (s : State) (k : FatalKind) (sv : BitVec 6) (g : Stage) (t : Index) : (raiseFault k sv g t s).freeCount = s.freeCount := rfl

/-! ### `raiseFaultCmd` -/

@[simp] theorem raiseFaultCmd_regs (s : State) (k : FatalKind) (sv : BitVec 6) (g : Stage) : (raiseFaultCmd k sv g s).regs = s.regs := rfl
@[simp] theorem raiseFaultCmd_cmdStat (s : State) (k : FatalKind) (sv : BitVec 6) (g : Stage) : (raiseFaultCmd k sv g s).cmdStat = .faulted := rfl
@[simp] theorem raiseFaultCmd_sidx (s : State) (k : FatalKind) (sv : BitVec 6) (g : Stage) : (raiseFaultCmd k sv g s).sidx = s.sidx := rfl
@[simp] theorem raiseFaultCmd_sidxValid (s : State) (k : FatalKind) (sv : BitVec 6) (g : Stage) : (raiseFaultCmd k sv g s).sidxValid = s.sidxValid := rfl
@[simp] theorem raiseFaultCmd_sidxHiLatch (s : State) (k : FatalKind) (sv : BitVec 6) (g : Stage) : (raiseFaultCmd k sv g s).sidxHiLatch = s.sidxHiLatch := rfl
@[simp] theorem raiseFaultCmd_win (s : State) (k : FatalKind) (sv : BitVec 6) (g : Stage) : (raiseFaultCmd k sv g s).win = s.win := rfl
@[simp] theorem raiseFaultCmd_acq (s : State) (k : FatalKind) (sv : BitVec 6) (g : Stage) : (raiseFaultCmd k sv g s).acq = s.acq := rfl
@[simp] theorem raiseFaultCmd_ch (s : State) (k : FatalKind) (sv : BitVec 6) (g : Stage) : (raiseFaultCmd k sv g s).ch = s.ch := rfl
@[simp] theorem raiseFaultCmd_fault (s : State) (k : FatalKind) (sv : BitVec 6) (g : Stage) : (raiseFaultCmd k sv g s).fault = s.fault.raise k.code := rfl
@[simp] theorem raiseFaultCmd_prompts (s : State) (k : FatalKind) (sv : BitVec 6) (g : Stage) : (raiseFaultCmd k sv g s).prompts = s.prompts := rfl
@[simp] theorem raiseFaultCmd_reports (s : State) (k : FatalKind) (sv : BitVec 6) (g : Stage) : (raiseFaultCmd k sv g s).reports = s.reports := rfl
@[simp] theorem raiseFaultCmd_events (s : State) (k : FatalKind) (sv : BitVec 6) (g : Stage) : (raiseFaultCmd k sv g s).events = s.events ++ [faultEvent k sv g s.sidx] := rfl
@[simp] theorem raiseFaultCmd_inputs (s : State) (k : FatalKind) (sv : BitVec 6) (g : Stage) : (raiseFaultCmd k sv g s).inputs = s.inputs := rfl
@[simp] theorem raiseFaultCmd_hostResp (s : State) (k : FatalKind) (sv : BitVec 6) (g : Stage) : (raiseFaultCmd k sv g s).hostResp = s.hostResp := rfl
@[simp] theorem raiseFaultCmd_freeCount (s : State) (k : FatalKind) (sv : BitVec 6) (g : Stage) : (raiseFaultCmd k sv g s).freeCount = s.freeCount := rfl

/-! ### `sourceFault` -/

@[simp] theorem sourceFault_regs (s : State) (k : FatalKind) (n : Index) : (sourceFault k n s).regs = s.regs := rfl
@[simp] theorem sourceFault_cmdStat (s : State) (k : FatalKind) (n : Index) : (sourceFault k n s).cmdStat = s.cmdStat := rfl
@[simp] theorem sourceFault_sidx (s : State) (k : FatalKind) (n : Index) : (sourceFault k n s).sidx = s.sidx := rfl
@[simp] theorem sourceFault_sidxValid (s : State) (k : FatalKind) (n : Index) : (sourceFault k n s).sidxValid = s.sidxValid := rfl
@[simp] theorem sourceFault_sidxHiLatch (s : State) (k : FatalKind) (n : Index) : (sourceFault k n s).sidxHiLatch = s.sidxHiLatch := rfl
@[simp] theorem sourceFault_win (s : State) (k : FatalKind) (n : Index) : (sourceFault k n s).win = s.win := rfl
@[simp] theorem sourceFault_acq (s : State) (k : FatalKind) (n : Index) : (sourceFault k n s).acq = s.acq := rfl
@[simp] theorem sourceFault_ch (s : State) (k : FatalKind) (n : Index) : (sourceFault k n s).ch = s.ch := rfl
@[simp] theorem sourceFault_fault (s : State) (k : FatalKind) (n : Index) : (sourceFault k n s).fault = s.fault.raise k.code := rfl
@[simp] theorem sourceFault_prompts (s : State) (k : FatalKind) (n : Index) : (sourceFault k n s).prompts = s.prompts := rfl
@[simp] theorem sourceFault_reports (s : State) (k : FatalKind) (n : Index) : (sourceFault k n s).reports = s.reports := rfl
@[simp] theorem sourceFault_events (s : State) (k : FatalKind) (n : Index) : (sourceFault k n s).events = s.events ++ [faultEvent k 0#6 .source n] := rfl
@[simp] theorem sourceFault_inputs (s : State) (k : FatalKind) (n : Index) : (sourceFault k n s).inputs = s.inputs := rfl
@[simp] theorem sourceFault_hostResp (s : State) (k : FatalKind) (n : Index) : (sourceFault k n s).hostResp = s.hostResp := rfl
@[simp] theorem sourceFault_freeCount (s : State) (k : FatalKind) (n : Index) : (sourceFault k n s).freeCount = s.freeCount := rfl

/-! ### `setChan` -/

@[simp] theorem setChan_regs (s : State) (c : Chan) (C : Channel) : (s.setChan c C).regs = s.regs := rfl
@[simp] theorem setChan_cmdStat (s : State) (c : Chan) (C : Channel) : (s.setChan c C).cmdStat = s.cmdStat := rfl
@[simp] theorem setChan_sidx (s : State) (c : Chan) (C : Channel) : (s.setChan c C).sidx = s.sidx := rfl
@[simp] theorem setChan_sidxValid (s : State) (c : Chan) (C : Channel) : (s.setChan c C).sidxValid = s.sidxValid := rfl
@[simp] theorem setChan_sidxHiLatch (s : State) (c : Chan) (C : Channel) : (s.setChan c C).sidxHiLatch = s.sidxHiLatch := rfl
@[simp] theorem setChan_win (s : State) (c : Chan) (C : Channel) : (s.setChan c C).win = s.win := rfl
@[simp] theorem setChan_acq (s : State) (c : Chan) (C : Channel) : (s.setChan c C).acq = s.acq := rfl
@[simp] theorem setChan_ch (s : State) (c : Chan) (C : Channel) : (s.setChan c C).ch = s.ch.set c C := rfl
@[simp] theorem setChan_fault (s : State) (c : Chan) (C : Channel) : (s.setChan c C).fault = s.fault := rfl
@[simp] theorem setChan_prompts (s : State) (c : Chan) (C : Channel) : (s.setChan c C).prompts = s.prompts := rfl
@[simp] theorem setChan_reports (s : State) (c : Chan) (C : Channel) : (s.setChan c C).reports = s.reports := rfl
@[simp] theorem setChan_events (s : State) (c : Chan) (C : Channel) : (s.setChan c C).events = s.events := rfl
@[simp] theorem setChan_inputs (s : State) (c : Chan) (C : Channel) : (s.setChan c C).inputs = s.inputs := rfl
@[simp] theorem setChan_hostResp (s : State) (c : Chan) (C : Channel) : (s.setChan c C).hostResp = s.hostResp := rfl
@[simp] theorem setChan_freeCount (s : State) (c : Chan) (C : Channel) : (s.setChan c C).freeCount = s.freeCount := rfl

/-! ### `softReset` -/

@[simp] theorem softReset_regs (s : State) : (softReset s).regs = Regs.reset := rfl
@[simp] theorem softReset_cmdStat (s : State) : (softReset s).cmdStat = .ok := rfl
@[simp] theorem softReset_sidx (s : State) : (softReset s).sidx = 0#64 := rfl
@[simp] theorem softReset_sidxValid (s : State) : (softReset s).sidxValid = false := rfl
@[simp] theorem softReset_sidxHiLatch (s : State) : (softReset s).sidxHiLatch = 0#32 := rfl
@[simp] theorem softReset_win (s : State) : (softReset s).win = Win.reset := rfl
@[simp] theorem softReset_acq (s : State) : (softReset s).acq = Acq.reset := rfl
@[simp] theorem softReset_ch (s : State) : (softReset s).ch = Vector.replicate nch Channel.reset := rfl
@[simp] theorem softReset_fault (s : State) : (softReset s).fault = FaultLatch.mk false 0#4 := rfl
@[simp] theorem softReset_prompts (s : State) : (softReset s).prompts = s.prompts := rfl
@[simp] theorem softReset_reports (s : State) : (softReset s).reports = s.reports := rfl
@[simp] theorem softReset_events (s : State) : (softReset s).events = s.events := rfl
@[simp] theorem softReset_inputs (s : State) : (softReset s).inputs = s.inputs := rfl
@[simp] theorem softReset_hostResp (s : State) : (softReset s).hostResp = s.hostResp := rfl
@[simp] theorem softReset_freeCount (s : State) : (softReset s).freeCount = s.freeCount := rfl

/-! ### `busError` -/

@[simp] theorem busError_regs (s : State) : (busError s).regs = s.regs := rfl
@[simp] theorem busError_cmdStat (s : State) : (busError s).cmdStat = s.cmdStat := rfl
@[simp] theorem busError_sidx (s : State) : (busError s).sidx = s.sidx := rfl
@[simp] theorem busError_sidxValid (s : State) : (busError s).sidxValid = s.sidxValid := rfl
@[simp] theorem busError_sidxHiLatch (s : State) : (busError s).sidxHiLatch = s.sidxHiLatch := rfl
@[simp] theorem busError_win (s : State) : (busError s).win = s.win := rfl
@[simp] theorem busError_acq (s : State) : (busError s).acq = s.acq := rfl
@[simp] theorem busError_ch (s : State) : (busError s).ch = s.ch := rfl
@[simp] theorem busError_fault (s : State) : (busError s).fault = s.fault := rfl
@[simp] theorem busError_prompts (s : State) : (busError s).prompts = s.prompts := rfl
@[simp] theorem busError_reports (s : State) : (busError s).reports = s.reports := rfl
@[simp] theorem busError_events (s : State) : (busError s).events = s.events := rfl
@[simp] theorem busError_inputs (s : State) : (busError s).inputs = s.inputs := rfl
@[simp] theorem busError_hostResp (s : State) : (busError s).hostResp = .busError := rfl
@[simp] theorem busError_freeCount (s : State) : (busError s).freeCount = s.freeCount := rfl

/-! ### `popInput` -/

@[simp] theorem popInput_regs (s : State) (rest : List Input) : (s.popInput rest).regs = s.regs := rfl
@[simp] theorem popInput_cmdStat (s : State) (rest : List Input) : (s.popInput rest).cmdStat = s.cmdStat := rfl
@[simp] theorem popInput_sidx (s : State) (rest : List Input) : (s.popInput rest).sidx = s.sidx := rfl
@[simp] theorem popInput_sidxValid (s : State) (rest : List Input) : (s.popInput rest).sidxValid = s.sidxValid := rfl
@[simp] theorem popInput_sidxHiLatch (s : State) (rest : List Input) : (s.popInput rest).sidxHiLatch = s.sidxHiLatch := rfl
@[simp] theorem popInput_win (s : State) (rest : List Input) : (s.popInput rest).win = s.win := rfl
@[simp] theorem popInput_acq (s : State) (rest : List Input) : (s.popInput rest).acq = s.acq := rfl
@[simp] theorem popInput_ch (s : State) (rest : List Input) : (s.popInput rest).ch = s.ch := rfl
@[simp] theorem popInput_fault (s : State) (rest : List Input) : (s.popInput rest).fault = s.fault := rfl
@[simp] theorem popInput_prompts (s : State) (rest : List Input) : (s.popInput rest).prompts = s.prompts := rfl
@[simp] theorem popInput_reports (s : State) (rest : List Input) : (s.popInput rest).reports = s.reports := rfl
@[simp] theorem popInput_events (s : State) (rest : List Input) : (s.popInput rest).events = s.events := rfl
@[simp] theorem popInput_inputs (s : State) (rest : List Input) : (s.popInput rest).inputs = rest := rfl
@[simp] theorem popInput_hostResp (s : State) (rest : List Input) : (s.popInput rest).hostResp = s.hostResp := rfl
@[simp] theorem popInput_freeCount (s : State) (rest : List Input) : (s.popInput rest).freeCount = s.freeCount := rfl

/-! ### `takeSample` -/

@[simp] theorem takeSample_regs (s : State) (n : Index) (x : Cplx) : (takeSample n x s).regs = s.regs := rfl
@[simp] theorem takeSample_cmdStat (s : State) (n : Index) (x : Cplx) : (takeSample n x s).cmdStat = s.cmdStat := rfl
@[simp] theorem takeSample_sidx (s : State) (n : Index) (x : Cplx) : (takeSample n x s).sidx = n + 1#64 := rfl
@[simp] theorem takeSample_sidxValid (s : State) (n : Index) (x : Cplx) : (takeSample n x s).sidxValid = true := rfl
@[simp] theorem takeSample_sidxHiLatch (s : State) (n : Index) (x : Cplx) : (takeSample n x s).sidxHiLatch = s.sidxHiLatch := rfl
@[simp] theorem takeSample_win (s : State) (n : Index) (x : Cplx) : (takeSample n x s).win = s.win.capture n x := rfl
@[simp] theorem takeSample_acq (s : State) (n : Index) (x : Cplx) : (takeSample n x s).acq = s.acq := rfl
@[simp] theorem takeSample_ch (s : State) (n : Index) (x : Cplx) : (takeSample n x s).ch = s.ch := rfl
@[simp] theorem takeSample_fault (s : State) (n : Index) (x : Cplx) : (takeSample n x s).fault = s.fault := rfl
@[simp] theorem takeSample_prompts (s : State) (n : Index) (x : Cplx) : (takeSample n x s).prompts = s.prompts := rfl
@[simp] theorem takeSample_reports (s : State) (n : Index) (x : Cplx) : (takeSample n x s).reports = s.reports := rfl
@[simp] theorem takeSample_events (s : State) (n : Index) (x : Cplx) : (takeSample n x s).events = s.events := rfl
@[simp] theorem takeSample_inputs (s : State) (n : Index) (x : Cplx) : (takeSample n x s).inputs = s.inputs := rfl
@[simp] theorem takeSample_hostResp (s : State) (n : Index) (x : Cplx) : (takeSample n x s).hostResp = s.hostResp := rfl
@[simp] theorem takeSample_freeCount (s : State) (n : Index) (x : Cplx) : (takeSample n x s).freeCount = s.freeCount := rfl

/-! ### `finishSearch` -/

@[simp] theorem finishSearch_regs (s : State) (o : SearchResult) : (finishSearch o s).regs = s.regs := rfl
@[simp] theorem finishSearch_cmdStat (s : State) (o : SearchResult) : (finishSearch o s).cmdStat = s.cmdStat := rfl
@[simp] theorem finishSearch_sidx (s : State) (o : SearchResult) : (finishSearch o s).sidx = s.sidx := rfl
@[simp] theorem finishSearch_sidxValid (s : State) (o : SearchResult) : (finishSearch o s).sidxValid = s.sidxValid := rfl
@[simp] theorem finishSearch_sidxHiLatch (s : State) (o : SearchResult) : (finishSearch o s).sidxHiLatch = s.sidxHiLatch := rfl
@[simp] theorem finishSearch_win (s : State) (o : SearchResult) : (finishSearch o s).win = s.win := rfl
@[simp] theorem finishSearch_acq (s : State) (o : SearchResult) : (finishSearch o s).acq = s.acq.finish s.win.start o := rfl
@[simp] theorem finishSearch_ch (s : State) (o : SearchResult) : (finishSearch o s).ch = s.ch := rfl
@[simp] theorem finishSearch_fault (s : State) (o : SearchResult) : (finishSearch o s).fault = s.fault := rfl
@[simp] theorem finishSearch_prompts (s : State) (o : SearchResult) : (finishSearch o s).prompts = s.prompts := rfl
@[simp] theorem finishSearch_reports (s : State) (o : SearchResult) : (finishSearch o s).reports = s.reports ++ [searchReport s o] := rfl
@[simp] theorem finishSearch_events (s : State) (o : SearchResult) : (finishSearch o s).events = s.events ++ [searchEvent s o] := rfl
@[simp] theorem finishSearch_inputs (s : State) (o : SearchResult) : (finishSearch o s).inputs = s.inputs := rfl
@[simp] theorem finishSearch_hostResp (s : State) (o : SearchResult) : (finishSearch o s).hostResp = s.hostResp := rfl
@[simp] theorem finishSearch_freeCount (s : State) (o : SearchResult) : (finishSearch o s).freeCount = s.freeCount + (if o.snr.isSome then 0 else 1) := rfl

/-! ### `failSearch` -/

@[simp] theorem failSearch_regs (s : State) : (failSearch s).regs = s.regs := rfl
@[simp] theorem failSearch_cmdStat (s : State) : (failSearch s).cmdStat = s.cmdStat := rfl
@[simp] theorem failSearch_sidx (s : State) : (failSearch s).sidx = s.sidx := rfl
@[simp] theorem failSearch_sidxValid (s : State) : (failSearch s).sidxValid = s.sidxValid := rfl
@[simp] theorem failSearch_sidxHiLatch (s : State) : (failSearch s).sidxHiLatch = s.sidxHiLatch := rfl
@[simp] theorem failSearch_win (s : State) : (failSearch s).win = s.win := rfl
@[simp] theorem failSearch_acq (s : State) : (failSearch s).acq = Acq.mk s.acq.busy s.acq.done s.acq.sv s.acq.range s.acq.step s.acq.thr (Config.freeResult s.freeCount) := rfl
@[simp] theorem failSearch_ch (s : State) : (failSearch s).ch = s.ch := rfl
@[simp] theorem failSearch_fault (s : State) : (failSearch s).fault = s.fault.raise FatalKind.internalInvariant.code := rfl
@[simp] theorem failSearch_prompts (s : State) : (failSearch s).prompts = s.prompts := rfl
@[simp] theorem failSearch_reports (s : State) : (failSearch s).reports = s.reports := rfl
@[simp] theorem failSearch_events (s : State) : (failSearch s).events = s.events ++ [faultEvent .internalInvariant s.acq.sv .acquirer s.win.start] := rfl
@[simp] theorem failSearch_inputs (s : State) : (failSearch s).inputs = s.inputs := rfl
@[simp] theorem failSearch_hostResp (s : State) : (failSearch s).hostResp = s.hostResp := rfl
@[simp] theorem failSearch_freeCount (s : State) : (failSearch s).freeCount = s.freeCount + 1 := rfl

/-! ### `chanDone` -/

@[simp] theorem chanDone_regs (s : State) (c : Chan) (o : ChanOut) (C : Channel) : (chanDone c o C s).regs = s.regs := rfl
@[simp] theorem chanDone_cmdStat (s : State) (c : Chan) (o : ChanOut) (C : Channel) : (chanDone c o C s).cmdStat = s.cmdStat := rfl
@[simp] theorem chanDone_sidx (s : State) (c : Chan) (o : ChanOut) (C : Channel) : (chanDone c o C s).sidx = s.sidx := rfl
@[simp] theorem chanDone_sidxValid (s : State) (c : Chan) (o : ChanOut) (C : Channel) : (chanDone c o C s).sidxValid = s.sidxValid := rfl
@[simp] theorem chanDone_sidxHiLatch (s : State) (c : Chan) (o : ChanOut) (C : Channel) : (chanDone c o C s).sidxHiLatch = s.sidxHiLatch := rfl
@[simp] theorem chanDone_win (s : State) (c : Chan) (o : ChanOut) (C : Channel) : (chanDone c o C s).win = s.win := rfl
@[simp] theorem chanDone_acq (s : State) (c : Chan) (o : ChanOut) (C : Channel) : (chanDone c o C s).acq = s.acq := rfl
@[simp] theorem chanDone_ch (s : State) (c : Chan) (o : ChanOut) (C : Channel) : (chanDone c o C s).ch = s.ch.set c C := rfl
@[simp] theorem chanDone_fault (s : State) (c : Chan) (o : ChanOut) (C : Channel) : (chanDone c o C s).fault = s.fault := rfl
@[simp] theorem chanDone_prompts (s : State) (c : Chan) (o : ChanOut) (C : Channel) : (chanDone c o C s).prompts = s.prompts ++ o.prompts := rfl
@[simp] theorem chanDone_reports (s : State) (c : Chan) (o : ChanOut) (C : Channel) : (chanDone c o C s).reports = s.reports := rfl
@[simp] theorem chanDone_events (s : State) (c : Chan) (o : ChanOut) (C : Channel) : (chanDone c o C s).events = s.events ++ o.events := rfl
@[simp] theorem chanDone_inputs (s : State) (c : Chan) (o : ChanOut) (C : Channel) : (chanDone c o C s).inputs = s.inputs := rfl
@[simp] theorem chanDone_hostResp (s : State) (c : Chan) (o : ChanOut) (C : Channel) : (chanDone c o C s).hostResp = s.hostResp := rfl
@[simp] theorem chanDone_freeCount (s : State) (c : Chan) (o : ChanOut) (C : Channel) : (chanDone c o C s).freeCount = s.freeCount := rfl

/-! ### `chanFault` -/

@[simp] theorem chanFault_regs (s : State) (c : Chan) (n : Index) (o : ChanOut) : (chanFault c n o s).regs = s.regs := rfl
@[simp] theorem chanFault_cmdStat (s : State) (c : Chan) (n : Index) (o : ChanOut) : (chanFault c n o s).cmdStat = s.cmdStat := rfl
@[simp] theorem chanFault_sidx (s : State) (c : Chan) (n : Index) (o : ChanOut) : (chanFault c n o s).sidx = s.sidx := rfl
@[simp] theorem chanFault_sidxValid (s : State) (c : Chan) (n : Index) (o : ChanOut) : (chanFault c n o s).sidxValid = s.sidxValid := rfl
@[simp] theorem chanFault_sidxHiLatch (s : State) (c : Chan) (n : Index) (o : ChanOut) : (chanFault c n o s).sidxHiLatch = s.sidxHiLatch := rfl
@[simp] theorem chanFault_win (s : State) (c : Chan) (n : Index) (o : ChanOut) : (chanFault c n o s).win = s.win := rfl
@[simp] theorem chanFault_acq (s : State) (c : Chan) (n : Index) (o : ChanOut) : (chanFault c n o s).acq = s.acq := rfl
@[simp] theorem chanFault_ch (s : State) (c : Chan) (n : Index) (o : ChanOut) : (chanFault c n o s).ch = s.ch.set c (Config.freeChannel s.freeCount) := rfl
@[simp] theorem chanFault_fault (s : State) (c : Chan) (n : Index) (o : ChanOut) : (chanFault c n o s).fault = s.fault.raise FatalKind.internalInvariant.code := rfl
@[simp] theorem chanFault_prompts (s : State) (c : Chan) (n : Index) (o : ChanOut) : (chanFault c n o s).prompts = s.prompts ++ o.prompts := rfl
@[simp] theorem chanFault_reports (s : State) (c : Chan) (n : Index) (o : ChanOut) : (chanFault c n o s).reports = s.reports := rfl
@[simp] theorem chanFault_events (s : State) (c : Chan) (n : Index) (o : ChanOut) : (chanFault c n o s).events = s.events ++ o.events ++ [faultEvent .internalInvariant s.ch[c].sv .tracker n] := rfl
@[simp] theorem chanFault_inputs (s : State) (c : Chan) (n : Index) (o : ChanOut) : (chanFault c n o s).inputs = s.inputs := rfl
@[simp] theorem chanFault_hostResp (s : State) (c : Chan) (n : Index) (o : ChanOut) : (chanFault c n o s).hostResp = s.hostResp := rfl
@[simp] theorem chanFault_freeCount (s : State) (c : Chan) (n : Index) (o : ChanOut) : (chanFault c n o s).freeCount = s.freeCount + 1 := rfl

/-! ### Whether a channel is active -/

@[simp] theorem active_idle : ChState.idle.active = false := rfl
@[simp] theorem active_acquired : ChState.acquired.active = true := rfl
@[simp] theorem active_pullIn : ChState.pullIn.active = true := rfl
@[simp] theorem active_locked : ChState.locked.active = true := rfl
@[simp] theorem active_unlocked : ChState.unlocked.active = false := rfl

/-! ### One channel after a channel's record is written -/

@[simp] theorem setChan_getElem_self (s : State) (c : Chan) (C : Channel) : (s.setChan c C).ch[c] = C := by
  simp [State.setChan]

theorem setChan_getElem_other (s : State) (c d : Chan) (C : Channel) (h : d ≠ c) : (s.setChan c C).ch[d] = s.ch[d] := by
  have hv : c.val ≠ d.val := fun e => h (Fin.ext e.symm)
  simp [State.setChan, hv]

/-- Reading a channel after any channel's record is written. -/
theorem setChan_getElem (s : State) (c d : Chan) (C : Channel) :
    (s.setChan c C).ch[d] = if d = c then C else s.ch[d] := by
  by_cases h : d = c
  · subst h; simp
  · rw [setChan_getElem_other s c d C h, if_neg h]

theorem chanDone_getElem (s : State) (c d : Chan) (o : ChanOut) (C : Channel) :
    (chanDone c o C s).ch[d] = if d = c then C else s.ch[d] :=
  setChan_getElem ((s.emitPrompts o.prompts).emitEvents o.events) c d C

theorem chanFault_getElem (s : State) (c d : Chan) (n : Index) (o : ChanOut) :
    (chanFault c n o s).ch[d] = if d = c then Config.freeChannel s.freeCount else s.ch[d] :=
  setChan_getElem s c d (Config.freeChannel s.freeCount)

@[simp] theorem softReset_chan (s : State) (c : Chan) : (softReset s).ch[c] = Channel.reset := by
  simp

@[simp] theorem reset_chan (c : Chan) : State.reset.ch[c] = Channel.reset := by
  simp [State.reset]

end Sys2Proof.Machine
end

