-- ==== Sys2Proof/Laws/Commands.lean ====
section
/-! SUPPORT. Everything a command can do, said once: `exec_effect`, and from it what every command leaves alone. -/

namespace Sys2Proof.Machine

/-- The states a command can lead to, with what guards each. -/
inductive CommandEffect (s : State) : State → Prop where
  | refused (code : CmdStat) : code ≠ .ok → CommandEffect s (refuse code s)
  | configFault (sv : BitVec 6) (g : Stage) : s.fault.set = false → cfgOk s.regs = false →
      CommandEffect s (raiseFaultCmd .configInvalid sv g s)
  | nothing : s.fault.set = false → CommandEffect s (accept s)
  | capture : s.fault.set = false → cfgOk s.regs = true → s.acq.busy = false → s.win.capturing = false →
      CommandEffect s (accept { s with win := s.win.startCapture s.regs })
  | search (cold : Bool) (sv : BitVec 6) : s.fault.set = false → svLegal sv = true → cfgOk s.regs = true →
      s.acq.busy = false → s.win.valid = true →
      CommandEffect s (accept { s with acq := s.acq.startSearch s.regs cold sv })
  | cancel : s.fault.set = false → s.acq.busy = true → CommandEffect s (accept { s with acq := s.acq.cancel })
  | abandon : s.fault.set = false → s.acq.busy = false → s.win.capturing = true →
      CommandEffect s (accept { s with win := s.win.abandon })
  | seed (c : Chan) (sv : BitVec 6) : s.fault.set = false → svLegal sv = true → cfgOk s.regs = true →
      s.ch[c].active = false → nActive s < s.regs.maxTracked.toNat → svTrackedElsewhere s c sv = false →
      s.regs.seedCphase.toNat < samplesPerBlock s.regs →
      CommandEffect s (accept (s.setChan c (seedChannel Config.num s.regs sv)))
  | stop (c : Chan) : s.fault.set = false → s.ch[c].active = true →
      CommandEffect s (accept (s.setChan c { s.ch[c] with st := .idle }))
  | reset : CommandEffect s (softReset s)

/-- Every command completes, in one of the ways listed. -/
theorem exec_effect (i : Instr) (s : State) : ∃ t, exec i s = .next t ∧ CommandEffect s t := by
  cases i with
  | nop =>
    simp only [exec, execNop]
    split
    · exact ⟨_, rfl, .refused _ (by decide)⟩
    · next h => exact ⟨_, rfl, .nothing (by simpa using h)⟩
  | wcap =>
    simp only [exec, execWcap]
    split
    · exact ⟨_, rfl, .refused _ (by decide)⟩
    next h1 =>
    split
    · next h2 => exact ⟨_, rfl, .configFault _ _ (by simpa using h1) (by simpa using h2)⟩
    next h2 =>
    split
    · exact ⟨_, rfl, .refused _ (by decide)⟩
    · next h3 =>
      simp only [Bool.or_eq_true, not_or, Bool.not_eq_true] at h3
      exact ⟨_, rfl, .capture (by simpa using h1) (by simpa using h2) h3.1 h3.2⟩
  | acq cold sv =>
    simp only [exec, execAcq]
    split
    · exact ⟨_, rfl, .refused _ (by decide)⟩
    next h1 =>
    split
    · exact ⟨_, rfl, .refused _ (by decide)⟩
    next h2 =>
    split
    · next h3 => exact ⟨_, rfl, .configFault _ _ (by simpa using h1) (by simpa using h3)⟩
    next h3 =>
    split
    · exact ⟨_, rfl, .refused _ (by decide)⟩
    next h4 =>
    split
    · exact ⟨_, rfl, .refused _ (by decide)⟩
    · next h5 =>
      exact ⟨_, rfl, .search cold sv (by simpa using h1) (by simpa using h2) (by simpa using h3)
        (by simpa using h4) (by simpa using h5)⟩
  | acqabort =>
    simp only [exec, execAcqabort]
    split
    · exact ⟨_, rfl, .refused _ (by decide)⟩
    next h1 =>
    split
    · next h2 => exact ⟨_, rfl, .cancel (by simpa using h1) h2⟩
    next h2 =>
    split
    · next h3 => exact ⟨_, rfl, .abandon (by simpa using h1) (by simpa using h2) h3⟩
    · exact ⟨_, rfl, .refused _ (by decide)⟩
  | tseed ch sv =>
    simp only [exec, execTseed]
    split
    · exact ⟨_, rfl, .refused _ (by decide)⟩
    next h1 =>
    split
    · exact ⟨_, rfl, .refused _ (by decide)⟩
    next c hc =>
    split
    · exact ⟨_, rfl, .refused _ (by decide)⟩
    next h2 =>
    split
    · next h3 => exact ⟨_, rfl, .configFault _ _ (by simpa using h1) (by simpa using h3)⟩
    next h3 =>
    refine ⟨_, rfl, ?_⟩
    unfold seedChecked
    split
    · exact .refused _ (by decide)
    next h4 =>
    split
    · exact .refused _ (by decide)
    next h5 =>
    split
    · exact .refused _ (by decide)
    next h6 =>
    split
    · exact .refused _ (by decide)
    · next h7 =>
      exact .seed c sv (by simpa using h1) (by simpa using h2) (by simpa using h3) (by simpa using h4)
        (by omega) (by simpa using h6) (by omega)
  | tstop ch =>
    simp only [exec, execTstop]
    split
    · exact ⟨_, rfl, .refused _ (by decide)⟩
    next h1 =>
    split
    · exact ⟨_, rfl, .refused _ (by decide)⟩
    next c hc =>
    split
    · exact ⟨_, rfl, .refused _ (by decide)⟩
    · next h2 => exact ⟨_, rfl, .stop c (by simpa using h1) (by simpa using h2)⟩
  | sreset => exact ⟨_, rfl, .reset⟩

/-- A command word completes in one of the ways of a command. -/
theorem execWord_effect (w : Word) (s : State) : ∃ t, execWord w s = .next t ∧ CommandEffect s t := by
  unfold execWord
  split
  · exact exec_effect _ s
  · refine ⟨_, rfl, .refused _ ?_⟩
    split <;> decide

/-- No command touches the reports, the prompts, the schedule, the host's answer or the count of free values. -/
theorem CommandEffect.frame {s t : State} (h : CommandEffect s t) :
    t.prompts = s.prompts ∧ t.reports = s.reports ∧ t.inputs = s.inputs ∧ t.hostResp = s.hostResp ∧
      t.freeCount = s.freeCount := by
  cases h <;> simp

/-- A command emits no event but a configuration fault's. -/
theorem CommandEffect.events {s t : State} (h : CommandEffect s t) :
    t.events = s.events ∨ ∃ sv g, t.events = s.events ++ [faultEvent .configInvalid sv g s.sidx] := by
  cases h with
  | configFault sv g => exact .inr ⟨sv, g, rfl⟩
  | _ => exact .inl rfl

/-- Every command but SRESET leaves the register file and the sample counter alone. -/
theorem CommandEffect.config {s t : State} (h : CommandEffect s t) (ht : t ≠ softReset s) :
    t.regs = s.regs ∧ t.sidx = s.sidx ∧ t.sidxValid = s.sidxValid ∧ t.sidxHiLatch = s.sidxHiLatch := by
  cases h <;> simp at ht ⊢

end Sys2Proof.Machine
end

