-- ==== Sys2Proof/Laws/Memory.lean ====
section
/-! SUPPORT. The laws of the window memory: read after write, and that a write keeps the canonical form. -/

namespace Sys2Proof.Machine

/-- Reading after a write: the written sample at its index, what stood there elsewhere. -/
theorem WinMem.read_write (m : WinMem) (i j : Nat) (x : Cplx) :
    (WinMem.write m i x).read j = if j = i then some x else m.read j := by
  induction m with
  | nil => by_cases h : j = i <;> simp [WinMem.write, WinMem.read, h]
  | cons p m ih =>
    obtain ⟨k, y⟩ := p
    simp only [WinMem.write]
    split
    · by_cases h : j = i <;> simp [WinMem.read, h]
    · split
      · next h => subst h; by_cases h : j = i <;> simp [WinMem.read, h]
      · next h1 h2 =>
        simp only [WinMem.read, ih]
        by_cases h : j = i
        · subst h; simp [h2]
        · simp [h]

/-- Every index in a canonical memory is above a bound that the head is above. -/
theorem WinMem.wf_cons {i : Nat} {x : Cplx} {m : WinMem} :
    WinMem.wf ((i, x) :: m) = true ↔ (∀ p ∈ m.head?, i < p.1) ∧ WinMem.wf m = true := by
  cases m with
  | nil => simp [WinMem.wf]
  | cons p m => obtain ⟨j, y⟩ := p; simp [WinMem.wf]

/-- The head of a memory after a write is the written index or the old head. -/
theorem WinMem.head_write (m : WinMem) (i : Nat) (x : Cplx) :
    ∀ p ∈ (WinMem.write m i x).head?, p.1 = i ∨ p ∈ m.head? := by
  cases m with
  | nil => simp [WinMem.write]
  | cons q m =>
    obtain ⟨j, y⟩ := q
    simp only [WinMem.write]
    split
    · simp
    · split <;> simp

/-- A write keeps the canonical form. -/
theorem WinMem.wf_write {m : WinMem} (h : m.wf = true) (i : Nat) (x : Cplx) :
    (WinMem.write m i x).wf = true := by
  induction m with
  | nil => simp [WinMem.write, WinMem.wf]
  | cons p m ih =>
    obtain ⟨k, y⟩ := p
    rw [WinMem.wf_cons] at h
    simp only [WinMem.write]
    split
    · next hlt => simp only [WinMem.wf, Bool.and_eq_true, decide_eq_true_eq]; exact ⟨hlt, WinMem.wf_cons.mpr h⟩
    · split
      · next heq => subst heq; exact WinMem.wf_cons.mpr h
      · next hlt hne =>
        refine WinMem.wf_cons.mpr ⟨fun p hp => ?_, ih h.2⟩
        rcases WinMem.head_write m i x p hp with e | e
        · omega
        · exact h.1 p e

/-- A capture keeps the canonical form. -/
theorem Win.capture_canonical {w : Win} (h : w.data.wf = true) (n : Index) (x : Cplx) :
    (w.capture n x).data.wf = true := by
  unfold Win.capture
  split
  · exact WinMem.wf_write h _ _
  · exact h

theorem Win.reset_canonical : Win.reset.data.wf = true := rfl

end Sys2Proof.Machine
end

