-- ==== Sys2Proof/Laws/Num.lean ====
section
/-! SUPPORT. What each operation of `NUM` can answer: its result is the exact one, and is a number. -/

namespace Sys2Proof.Machine

theorem chk_eq_some {nm : Numerics} {x y : Scalar} : chk nm x = some y ↔ nm.isNumber x = true ∧ y = x := by
  unfold chk
  split
  · next h => simp only [Option.some.injEq, h, true_and]; exact eq_comm
  · next h => simp [h]

theorem nAdd_eq_some {nm : Numerics} {a b y : Scalar} :
    nAdd nm a b = some y ↔ nm.isNumber (a + b) = true ∧ y = a + b := chk_eq_some

theorem nSub_eq_some {nm : Numerics} {a b y : Scalar} :
    nSub nm a b = some y ↔ nm.isNumber (a - b) = true ∧ y = a - b := chk_eq_some

theorem nMul_eq_some {nm : Numerics} {a b y : Scalar} :
    nMul nm a b = some y ↔ nm.isNumber (a * b) = true ∧ y = a * b := chk_eq_some

theorem nDiv_eq_some {nm : Numerics} {a b y : Scalar} :
    nDiv nm a b = some y ↔ b ≠ 0 ∧ nm.isNumber (a / b) = true ∧ y = a / b := by
  unfold nDiv; split <;> simp_all [chk_eq_some]

theorem nSqrt_eq_some {nm : Numerics} {a y : Scalar} :
    nSqrt nm a = some y ↔ nm.isNumber (nm.sqrt a) = true ∧ y = nm.sqrt a := chk_eq_some

theorem nAtan_eq_some {nm : Numerics} {a y : Scalar} :
    nAtan nm a = some y ↔ nm.isNumber (nm.atan a) = true ∧ y = nm.atan a := chk_eq_some

theorem nLog10_eq_some {nm : Numerics} {a y : Scalar} :
    nLog10 nm a = some y ↔ nm.isNumber (nm.log10 a) = true ∧ y = nm.log10 a := chk_eq_some

/-- A remainder lies in its range: `frac`. -/
theorem nFrac_range {nm : Numerics} {t y : Scalar} (h : nFrac nm t = some y) : 0 ≤ y ∧ y < 1 := by
  obtain ⟨-, rfl⟩ := nSub_eq_some.mp h
  have h1 : ((t.floor : Int) : Rat) ≤ t := Rat.floor_le t
  have h2 : t < (t.floor : Rat) + 1 := by exact_mod_cast Rat.lt_floor_add_one t
  constructor <;> linarith

/-- Whole multiples of `m` in `x` and the rest: both are the exact ones. -/
theorem nDivMod_eq_some {nm : Numerics} {x m : Scalar} {r : Int × Scalar} (h : nDivMod nm x m = some r) :
    r.1 = (x / m).floor ∧ r.2 = x - m * ((x / m).floor : Int) := by
  simp only [nDivMod, Option.bind_eq_bind, Option.bind_eq_some_iff, Option.pure_def, Option.some.injEq] at h
  obtain ⟨q, hq, w, hw, y, hy, rfl⟩ := h
  obtain ⟨-, -, rfl⟩ := nDiv_eq_some.mp hq
  obtain ⟨-, rfl⟩ := nMul_eq_some.mp hw
  obtain ⟨-, rfl⟩ := nSub_eq_some.mp hy
  exact ⟨rfl, rfl⟩

/-- The rest after whole multiples of a positive `m` lies in `[0, m)`. -/
theorem nDivMod_range {nm : Numerics} {x m : Scalar} {r : Int × Scalar} (hm : 0 < m) (h : nDivMod nm x m = some r) :
    0 ≤ r.2 ∧ r.2 < m := by
  have h1 : (((x / m).floor : Int) : Rat) ≤ x / m := Rat.floor_le _
  have h2 : x / m < ((x / m).floor : Rat) + 1 := by exact_mod_cast Rat.lt_floor_add_one (x / m)
  rw [le_div_iff₀ hm] at h1
  rw [div_lt_iff₀ hm] at h2
  rw [(nDivMod_eq_some h).2]
  constructor <;> nlinarith

theorem lcode_pos : (0 : Scalar) < lcode := by norm_num [lcode]

/-- A remainder is the rest after whole multiples. -/
theorem nMod_eq_some {nm : Numerics} {x m y : Scalar} (h : nMod nm x m = some y) :
    y = x - m * ((x / m).floor : Int) := by
  simp only [nMod, Option.bind_eq_bind, Option.bind_eq_some_iff, Option.pure_def, Option.some.injEq] at h
  obtain ⟨r, hr, rfl⟩ := h
  exact (nDivMod_eq_some hr).2

/-- A remainder lies in its range: `mod` by a positive modulus. -/
theorem nMod_range {nm : Numerics} {x m y : Scalar} (hm : 0 < m) (h : nMod nm x m = some y) : 0 ≤ y ∧ y < m := by
  simp only [nMod, Option.bind_eq_bind, Option.bind_eq_some_iff, Option.pure_def, Option.some.injEq] at h
  obtain ⟨r, hr, rfl⟩ := h
  exact nDivMod_range hm hr

end Sys2Proof.Machine
end

