-- ==== Sys2Proof/Laws/PerInstr.lean ====
section
/-! SUPPORT. The family `EncodedOp`, one lemma per command, and the disjointness of the opcode map (30_encoding.md R83). -/

namespace Sys2Proof.Laws.EncodedOp

/-- The word of the command has one of the seven OP values, and it selects a row of the opcode map (30_encoding.md R83). -/
def Statement (i : Instr) : Prop :=
  opListed (opField (encode i)) = true ∧ opRows.any (fun r => r.selects (encode i)) = true

theorem nop : Statement .nop := by unfold Statement; decide

theorem wcap : Statement .wcap := by unfold Statement; decide

theorem acq (cold : Bool) (sv : BitVec 6) : Statement (.acq cold sv) := by
  unfold Statement; revert cold sv; decide

theorem acqabort : Statement .acqabort := by unfold Statement; decide

theorem tseed (ch : BitVec 4) (sv : BitVec 6) : Statement (.tseed ch sv) := by
  unfold Statement; revert ch sv; decide +kernel

theorem tstop (ch : BitVec 4) : Statement (.tstop ch) := by
  unfold Statement; revert ch; decide

theorem sreset : Statement .sreset := by unfold Statement; decide

end Sys2Proof.Laws.EncodedOp

namespace Sys2Proof

/-- Two rows are disjoint when their patterns differ in a bit that both masks compare. -/
def OpRow.apart (r r' : OpRow) : Bool := r.pattern &&& (r.mask &&& r'.mask) != r'.pattern &&& (r.mask &&& r'.mask)

/-- The rows of the opcode map are pairwise disjoint (30_encoding.md R83). -/
theorem opRows_apart : opRows.Pairwise (fun r r' => r.apart r' = true) := by decide

/-- No word selects two rows that are apart. -/
theorem OpRow.apart_selects {r r' : OpRow} (h : r.apart r' = true) (w : Word) :
    ¬(r.selects w = true ∧ r'.selects w = true) := by
  rintro ⟨h1, h2⟩
  simp only [OpRow.selects, beq_iff_eq] at h1 h2
  simp only [OpRow.apart, bne_iff_ne, ne_eq] at h
  apply h
  rw [← h1, ← h2]
  ext i
  simp only [BitVec.getElem_and]
  cases w[i] <;> cases r.mask[i] <;> cases r'.mask[i] <;> rfl

end Sys2Proof
end

