-- ==== Sys2Proof/Laws/Regs.lean ====
section
/-! SUPPORT. The register map: offsets and names agree, and what a read and a write of a register leave alone. -/

namespace Sys2Proof.Machine

theorem regAt_offset_scalar : ∀ r ∈ scalarRegs, regAt r.offset = some r := by decide

theorem regAt_offset_chStatus : ∀ c : Chan, regAt (RegName.chStatus c).offset = some (.chStatus c) := by decide

theorem regAt_offset_chEpochs : ∀ c : Chan, regAt (RegName.chEpochs c).offset = some (.chEpochs c) := by decide

theorem mem_allRegs (r : RegName) : r ∈ allRegs := by
  cases r with
  | chStatus c => simp [allRegs, List.mem_flatMap]
  | chEpochs c => simp [allRegs, List.mem_flatMap]
  | _ => simp [allRegs, scalarRegs]

/-- Every register stands at its offset, and no other register does. -/
theorem regAt_offset (r : RegName) : regAt r.offset = some r := by
  cases r with
  | chStatus c => exact regAt_offset_chStatus c
  | chEpochs c => exact regAt_offset_chEpochs c
  | _ => exact regAt_offset_scalar _ (by simp [scalarRegs])

/-- A register found at an offset has that offset. -/
theorem regAt_eq_some {off : Nat} {r : RegName} : regAt off = some r ↔ r.offset = off := by
  constructor
  · intro h
    have := List.find?_some h
    simpa using this
  · rintro rfl
    exact regAt_offset r

theorem offset_aligned : ∀ r : RegName, r.offset % 4 = 0 ∧ r.offset ≤ 0xCC := by
  intro r
  cases r with
  | chStatus c => have := c.isLt; simp only [RegName.offset, nch] at *; omega
  | chEpochs c => have := c.isLt; simp only [RegName.offset, nch] at *; omega
  | _ => simp [RegName.offset]

/-- Nothing is mapped off a multiple of 4 or above 0xCC. -/
theorem regAt_none {off : Nat} (h : off % 4 ≠ 0 ∨ 0xCC < off) : regAt off = none := by
  cases hr : regAt off with
  | none => rfl
  | some r =>
    have e := regAt_eq_some.mp hr
    have := offset_aligned r
    omega

/-- A read changes the answer to the host and, at SIDX_LO, the hidden latch; nothing else. -/
theorem regRead_frame (off width : Nat) (s : State) :
    regRead off width s =
      { s with hostResp := (regRead off width s).hostResp, sidxHiLatch := (regRead off width s).sidxHiLatch } := by
  unfold regRead
  cases regOfAccess off width <;> rfl

/-- A register write changes the register file and the answer to the host; nothing else. -/
theorem regWrite_frame (r : RegName) (v : Word) (s : State) :
    regWrite r v s = { s with regs := (regWrite r v s).regs, hostResp := (regWrite r v s).hostResp } := by
  unfold regWrite
  split <;> rfl

/-- A write reaches CMD only at its offset, with the width of a register. -/
theorem regOfAccess_eq_some {off width : Nat} {r : RegName} :
    regOfAccess off width = some r ↔ width = 32 ∧ r.offset = off := by
  unfold regOfAccess
  by_cases h : width = 32 <;> simp [h, regAt_eq_some]

end Sys2Proof.Machine
end

