-- ==== Sys2Proof/Laws/Samples.lean ====
section
/-! SUPPORT. Everything a channel step and a sample step can do, said once, and the two inductions over the channels. -/

namespace Sys2Proof.Machine

/-! ### The channel step -/

/-- Fixing the code phase changes `cp`, `estart` and the pending flag; it leaves nothing pending. -/
theorem fixPhase_some {nm : Numerics} {n : Index} {C C' : Channel} (h : fixPhase nm n C = some C') :
    C' = { C with cp := C'.cp, estart := C'.estart, phasePending := false } ∧
      (C.phasePending = false → C' = C) := by
  unfold fixPhase at h
  split at h
  · next hp =>
    simp only [Option.bind_eq_bind, Option.bind_eq_some_iff, Option.pure_def, Option.some.injEq] at h
    obtain ⟨_, -, _, -, cp, -, rfl⟩ := h
    exact ⟨rfl, by simp [hp]⟩
  · next hp =>
    obtain rfl := Option.some.inj h
    simp only [Bool.not_eq_true] at hp
    exact ⟨by rw [← hp], fun _ => rfl⟩

/-- Integrating changes the six accumulators only. -/
theorem integrate_some {nm : Numerics} {C C' : Channel} {y : Cplx} (h : integrate nm C y = some C') :
    C' = { C with ie := C'.ie, qe := C'.qe, ip := C'.ip, qp := C'.qp, il := C'.il, ql := C'.ql } := by
  simp only [integrate, Option.bind_eq_bind, Option.bind_eq_some_iff, Option.pure_def, Option.some.injEq] at h
  obtain ⟨_, -, _, -, _, -, _, -, _, -, _, -, _, -, _, -, rfl⟩ := h
  rfl

/-- The carrier NCO's advance changes `theta` only, and leaves it in range. -/
theorem advanceCarrier_some {nm : Numerics} {C C' : Channel} (h : advanceCarrier nm C = some C') :
    C' = { C with theta := C'.theta } ∧ 0 ≤ C'.theta ∧ C'.theta < 1 := by
  simp only [advanceCarrier, Option.bind_eq_bind, Option.bind_eq_some_iff, Option.pure_def, Option.some.injEq] at h
  obtain ⟨_, -, _, -, _, hf, rfl⟩ := h
  exact ⟨rfl, nFrac_range hf⟩

/-- The code NCO's advance changes `cp` only, and leaves it in range. -/
theorem advanceCode_some {nm : Numerics} {C : Channel} {r : Channel × Int} (h : advanceCode nm C = some r) :
    r.1 = { C with cp := r.1.cp } ∧ 0 ≤ r.1.cp ∧ r.1.cp < 1023 := by
  simp only [advanceCode, Option.bind_eq_bind, Option.bind_eq_some_iff, Option.pure_def, Option.some.injEq] at h
  obtain ⟨_, -, _, -, q, hq, rfl⟩ := h
  exact ⟨rfl, nDivMod_range lcode_pos hq⟩

/-- The channel step before the dump: what it leaves alone, and the ranges of both phases. -/
theorem trackSample_some {nm : Numerics} {n : Index} {x : Cplx} {C : Channel} {r : Channel × Int}
    (h : trackSample nm n x C = some r) :
    (r.1.st = C.st ∧ r.1.sv = C.sv ∧ r.1.fs = C.fs ∧ r.1.wn = C.wn ∧ r.1.gdll = C.gdll ∧ r.1.thr = C.thr ∧
      r.1.fSeed = C.fSeed ∧ r.1.cpSeed = C.cpSeed ∧ r.1.aidx = C.aidx ∧ r.1.f = C.f ∧ r.1.pint = C.pint ∧
      r.1.rate = C.rate ∧ r.1.aligned = C.aligned ∧ r.1.pullCnt = C.pullCnt ∧ r.1.belowCnt = C.belowCnt ∧
      r.1.epochs = C.epochs ∧ r.1.pbuf = C.pbuf) ∧
    r.1.phasePending = false ∧ (0 ≤ r.1.cp ∧ r.1.cp < 1023) ∧ 0 ≤ r.1.theta ∧ r.1.theta < 1 := by
  simp only [trackSample, Option.bind_eq_bind, Option.bind_eq_some_iff] at h
  obtain ⟨C1, h1, y, -, C2, h2, C3, h3, h4⟩ := h
  have e1 := (fixPhase_some h1).1
  have e2 := integrate_some h2
  obtain ⟨e3, ht⟩ := advanceCarrier_some h3
  obtain ⟨e4, hc⟩ := advanceCode_some h4
  rw [e4]
  refine ⟨?_, ?_, hc, ?_⟩
  · rw [e3, e2, e1]; simp
  · rw [e3, e2, e1]
  · exact ht

/-! ### The dump -/

/-- The loops change `pint`, `f` and `rate` only. -/
theorem loops_some {nm : Numerics} {C C1 C2 : Channel} (h1 : carrierLoop nm C = some C1) (h2 : codeLoop nm C1 = some C2) :
    C2 = { C with pint := C2.pint, f := C2.f, rate := C2.rate } := by
  simp only [carrierLoop, Option.bind_eq_bind, Option.bind_eq_some_iff, Option.pure_def, Option.some.injEq] at h1
  obtain ⟨_, -, _, -, _, -, _, -, _, -, _, -, _, -, _, -, _, -, _, -, _, -, rfl⟩ := h1
  simp only [codeLoop, Option.bind_eq_bind, Option.bind_eq_some_iff, Option.pure_def, Option.some.injEq] at h2
  obtain ⟨_, -, _, -, _, -, _, -, _, -, _, -, rfl⟩ := h2
  rfl

/-- The loops do not read what a dump counts: they commute with the count. -/
theorem carrierLoop_countPrompt (nm : Numerics) (C : Channel) :
    carrierLoop nm (countPrompt C) = (carrierLoop nm C).map countPrompt := by
  have h : ∀ o : Option Channel, o.map countPrompt = o.bind fun D => some (countPrompt D) := fun o => by cases o <;> rfl
  simp only [h, carrierLoop, countPrompt, Option.bind_eq_bind, Option.pure_def, Option.bind_assoc, Option.bind_some]

theorem codeLoop_countPrompt (nm : Numerics) (C : Channel) :
    codeLoop nm (countPrompt C) = (codeLoop nm C).map countPrompt := by
  have h : ∀ o : Option Channel, o.map countPrompt = o.bind fun D => some (countPrompt D) := fun o => by cases o <;> rfl
  simp only [h, codeLoop, codeError, countPrompt, Option.bind_eq_bind, Option.pure_def, Option.bind_assoc,
    Option.bind_some]

/-- The state machine of a dump: pull-in counts or locks, the detector counts or demotes, any other state stays. -/
theorem stateMachine_some {nm : Numerics} {n : Index} {C : Channel} {r : Channel × List Event}
    (h : stateMachine nm n C = some r) :
    (C.st = .pullIn ∧ r = pullInDump n C) ∨
    (C.st = .locked ∧ ∃ b, lockBelow nm C.thr C.pbuf = some b ∧ r = lockedDump n b C) ∨
    (C.st ≠ .pullIn ∧ C.st ≠ .locked ∧ r = (C, [])) := by
  unfold stateMachine at h
  split at h
  · next e => exact .inl ⟨e, (Option.some.inj h).symm⟩
  · next e =>
    simp only [Option.bind_eq_bind, Option.bind_eq_some_iff, Option.pure_def, Option.some.injEq] at h
    obtain ⟨b, hb, rfl⟩ := h
    exact .inr (.inl ⟨e, b, hb, rfl⟩)
  all_goals
    next e =>
    obtain rfl := Option.some.inj h
    exact .inr (.inr ⟨by simp [e], by simp [e], rfl⟩)

/-- The record the state machine of a dump reads, beside the record before the dump: the prompt pushed and counted,
`pint`, `f` and `rate` rewritten by the loops, nothing else changed. -/
structure Counted (C G : Channel) : Prop where
  st : G.st = C.st
  sv : G.sv = C.sv
  fs : G.fs = C.fs
  wn : G.wn = C.wn
  gdll : G.gdll = C.gdll
  thr : G.thr = C.thr
  fSeed : G.fSeed = C.fSeed
  cpSeed : G.cpSeed = C.cpSeed
  aidx : G.aidx = C.aidx
  phasePending : G.phasePending = C.phasePending
  theta : G.theta = C.theta
  cp : G.cp = C.cp
  aligned : G.aligned = C.aligned
  pullCnt : G.pullCnt = C.pullCnt
  belowCnt : G.belowCnt = C.belowCnt
  epochs : G.epochs = C.epochs + 1#32
  pbuf : G.pbuf = pushPrompt C.pbuf { re := C.ip, im := C.qp }

/-- The loops after the count change only what `Counted` leaves open. -/
theorem loops_counted {nm : Numerics} {C C1 C2 : Channel} (h1 : carrierLoop nm (countPrompt C) = some C1)
    (h2 : codeLoop nm C1 = some C2) : Counted C C2 := by
  have e := loops_some h1 h2
  constructor <;> (rw [e]; simp only [countPrompt])

/-- Pushing a prompt: the buffer grows by one entry, up to its depth. -/
theorem pushPrompt_length (buf : List Cplx) (x : Cplx) :
    (pushPrompt buf x).length = min (buf.length + 1) pbufDepth := by
  simp only [pushPrompt, List.length_drop, List.length_append, List.length_cons, List.length_nil]
  omega

/-- A dump with a result: the alignment dump, or the state machine over the counted and filtered record. -/
theorem dump_some {nm : Numerics} {n : Index} {C C' : Channel} (h : (dump nm n C).chan = some C') :
    (C.aligned = false ∧ C' = clearEpoch n { C with aligned := true, st := .pullIn }) ∨
    (C.aligned = true ∧ ∃ G r, Counted C G ∧ stateMachine nm n G = some r ∧ C' = clearEpoch n r.1 ∧
      (dump nm n C).events = r.2) := by
  unfold dump at h ⊢
  split at h
  · next ha =>
    simp only [ha, if_true]
    cases hd : dumpLoops nm n C with
    | none => simp [hd] at h
    | some r =>
      simp only [hd, Option.some.injEq] at h
      simp only [dumpLoops, Option.bind_eq_bind, Option.bind_eq_some_iff, Option.pure_def, Option.some.injEq] at hd
      obtain ⟨C1, h1, C2, h2, q, hq, rfl⟩ := hd
      exact .inr ⟨trivial, C2, q, loops_counted h1 h2, hq, h.symm, rfl⟩
  · next ha =>
    obtain rfl := Option.some.inj h
    exact .inl ⟨by simp_all, rfl⟩

/-- Pull-in, case by case. -/
theorem pullInDump_cases (n : Index) (C : Channel) :
    (C.pullCnt + 1#9 = 500#9 ∧ pullInDump n C =
      ({ C with pullCnt := 500#9, st := .locked, belowCnt := 0#11 }, [trackerEvent .locked .none C.sv n])) ∨
    (C.pullCnt + 1#9 ≠ 500#9 ∧ pullInDump n C = ({ C with pullCnt := C.pullCnt + 1#9 }, [])) := by
  simp only [pullInDump]
  split
  · next h => exact .inl ⟨h, by rw [h]⟩
  · next h => exact .inr ⟨h, rfl⟩

/-- The lock detector's count, case by case. -/
theorem lockedDump_cases (n : Index) (below : Bool) (C : Channel) :
    (below = true ∧ C.belowCnt + 1#11 = 2000#11 ∧ lockedDump n below C =
      ({ C with belowCnt := 2000#11, st := .unlocked }, [trackerEvent .unlocked .lockLost C.sv n])) ∨
    (below = true ∧ C.belowCnt + 1#11 ≠ 2000#11 ∧ lockedDump n below C =
      ({ C with belowCnt := C.belowCnt + 1#11 }, [])) ∨
    (below = false ∧ lockedDump n below C = ({ C with belowCnt := 0#11 }, [])) := by
  cases below with
  | true =>
    simp only [lockedDump, if_true]
    split
    · next h => exact .inl ⟨trivial, h, by rw [h]⟩
    · next h => exact .inr (.inl ⟨trivial, h, rfl⟩)
  | false => exact .inr (.inr ⟨rfl, rfl⟩)

/-! ### Inductions over the channels -/

/-- An inactive channel has no turn. -/
theorem runChannels_inactive {nm : Numerics} {n : Index} {x : Cplx} {c : Chan} {cs : List Chan} {s : State}
    (h : s.ch[c].active = false) : runChannels nm n x (c :: cs) s = runChannels nm n x cs s := by
  rw [runChannels, h]; rfl

/-- An active channel with a result writes it, and the round goes on. -/
theorem runChannels_done {nm : Numerics} {n : Index} {x : Cplx} {c : Chan} {cs : List Chan} {s : State} {C : Channel}
    (h : s.ch[c].active = true) (ho : (chanStep nm n x s.ch[c]).chan = some C) :
    runChannels nm n x (c :: cs) s = runChannels nm n x cs (chanDone c (chanStep nm n x s.ch[c]) C s) := by
  rw [runChannels, h]; dsimp only; rw [ho]; rfl

/-- An active channel without a number ends the round with its fault. -/
theorem runChannels_fault {nm : Numerics} {n : Index} {x : Cplx} {c : Chan} {cs : List Chan} {s : State}
    (h : s.ch[c].active = true) (ho : (chanStep nm n x s.ch[c]).chan = none) :
    runChannels nm n x (c :: cs) s = chanFault c n (chanStep nm n x s.ch[c]) s := by
  rw [runChannels, h]; dsimp only; rw [ho]; rfl

/-- A channel step without a number emits no event: its prompt, where it dumped, is all it leaves. -/
theorem chanStep_none_events {nm : Numerics} {n : Index} {x : Cplx} {C : Channel}
    (h : (chanStep nm n x C).chan = none) : (chanStep nm n x C).events = [] := by
  have hd : ∀ D, (dump nm n D).chan = none → (dump nm n D).events = [] := by
    intro D h
    unfold dump at h ⊢
    split at h
    · next ha =>
      rw [if_pos ha]
      cases hl : dumpLoops nm n D with
      | none => rfl
      | some r => simp [hl] at h
    · cases h
  unfold chanStep at h ⊢
  cases ht : trackSample nm n x C with
  | none => rfl
  | some r =>
    simp only [ht] at h ⊢
    split at h
    · next hw => rw [if_pos hw]; exact hd _ h
    · cases h

/-- What every channel's turn keeps, the channels' round keeps. -/
theorem runChannels_keeps {nm : Numerics} {n : Index} {x : Cplx} {P : State → Prop}
    (hdone : ∀ c s C, s.ch[c].active = true → (chanStep nm n x s.ch[c]).chan = some C → P s →
      P (chanDone c (chanStep nm n x s.ch[c]) C s))
    (hfault : ∀ c s, s.ch[c].active = true → (chanStep nm n x s.ch[c]).chan = none → P s →
      P (chanFault c n (chanStep nm n x s.ch[c]) s)) :
    ∀ cs s, P s → P (runChannels nm n x cs s) := by
  intro cs
  induction cs with
  | nil => exact fun s h => h
  | cons c cs ih =>
    intro s h
    unfold runChannels
    split
    · next ha =>
      dsimp only
      split
      · next C hC => exact ih _ (hdone c s C ha hC h)
      · next hC => exact hfault c s ha hC h
    · exact ih s h

/-- What one channel's unlocking keeps, the unlocking of all keeps. -/
theorem unlockAll_keeps {n : Index} {P : State → Prop} (h1 : ∀ c s, P s → P (unlockChannel n s c)) (s : State)
    (h : P s) : P (unlockAll n s) := by
  have : ∀ (cs : List Chan) (s : State), P s → P (cs.foldl (unlockChannel n) s) := by
    intro cs
    induction cs with
    | nil => exact fun s h => h
    | cons c cs ih => exact fun s h => ih _ (h1 c s h)
  exact this _ s h

/-- The channels' round leaves everything alone but the channels, the fault latch, the PROMPT and EVENT traces and the
count of free values. -/
theorem runChannels_frame (nm : Numerics) (n : Index) (x : Cplx) (cs : List Chan) (s : State) :
    let t := runChannels nm n x cs s
    t.regs = s.regs ∧ t.cmdStat = s.cmdStat ∧ t.sidx = s.sidx ∧ t.sidxValid = s.sidxValid ∧
      t.sidxHiLatch = s.sidxHiLatch ∧ t.win = s.win ∧ t.acq = s.acq ∧ t.reports = s.reports ∧ t.inputs = s.inputs ∧
      t.hostResp = s.hostResp := by
  refine runChannels_keeps (P := fun t => t.regs = s.regs ∧ t.cmdStat = s.cmdStat ∧ t.sidx = s.sidx ∧
    t.sidxValid = s.sidxValid ∧ t.sidxHiLatch = s.sidxHiLatch ∧ t.win = s.win ∧ t.acq = s.acq ∧
    t.reports = s.reports ∧ t.inputs = s.inputs ∧ t.hostResp = s.hostResp) ?_ ?_ cs s (by simp)
  · intro c t C _ _ h; simpa using h
  · intro c t _ _ h; simpa using h

/-- The unlocking of all channels leaves everything alone but the channels and the EVENT trace. -/
theorem unlockAll_frame (n : Index) (s : State) :
    let t := unlockAll n s
    t.regs = s.regs ∧ t.cmdStat = s.cmdStat ∧ t.sidx = s.sidx ∧ t.sidxValid = s.sidxValid ∧
      t.sidxHiLatch = s.sidxHiLatch ∧ t.win = s.win ∧ t.acq = s.acq ∧ t.fault = s.fault ∧ t.prompts = s.prompts ∧
      t.reports = s.reports ∧ t.inputs = s.inputs ∧ t.hostResp = s.hostResp ∧ t.freeCount = s.freeCount := by
  refine unlockAll_keeps (P := fun t => t.regs = s.regs ∧ t.cmdStat = s.cmdStat ∧ t.sidx = s.sidx ∧
    t.sidxValid = s.sidxValid ∧ t.sidxHiLatch = s.sidxHiLatch ∧ t.win = s.win ∧ t.acq = s.acq ∧ t.fault = s.fault ∧
    t.prompts = s.prompts ∧ t.reports = s.reports ∧ t.inputs = s.inputs ∧ t.hostResp = s.hostResp ∧
    t.freeCount = s.freeCount) ?_ s (by simp)
  intro c t h
  unfold unlockChannel
  split
  · simpa using h
  · exact h

/-- A gap's channels and traces are those of the unlocking; what the unlocking leaves alone keeps its value, the window
memory and the counter apart. -/
theorem gapStep_eq (n : Index) (s : State) :
    let u := unlockAll n (s.emitEvents [overrunEvent n])
    gapStep n s = { s with
      ch := u.ch, events := u.events, sidx := n + 1#64
      win := if s.win.capturing then s.win.abandon else s.win } := by
  obtain ⟨h1, h2, h3, h4, h5, h6, h7, h8, h9, h10, h11, h12, h13⟩ := unlockAll_frame n (s.emitEvents [overrunEvent n])
  simp only [gapStep, h6]
  generalize unlockAll n (s.emitEvents [overrunEvent n]) = u at *
  cases u
  subst h1 h2 h3 h4 h5 h6 h7 h8 h9 h10 h11 h12 h13
  rfl

/-! ### The sample step -/

/-- The states a sample step can lead to, with what guards each. -/
inductive SampleEffect (nm : Numerics) (n : Index) (x : Cplx) (s : State) : State → Prop where
  | ignored : s.fault.set = true → SampleEffect nm n x s s
  | backward : s.fault.set = false → s.sidxValid = true → n < s.sidx →
      SampleEffect nm n x s (sourceFault .internalInvariant n s)
  | gap : s.fault.set = false → s.sidxValid = true → s.sidx < n → SampleEffect nm n x s (gapStep n s)
  | accepted : s.fault.set = false → (s.sidxValid = true → n = s.sidx) →
      SampleEffect nm n x s (acceptSample nm n x s)

theorem sampleStep_effect (nm : Numerics) (n : Index) (x : Cplx) (s : State) :
    SampleEffect nm n x s (sampleStep nm n x s) := by
  unfold sampleStep
  split
  · next h => exact .ignored h
  next h =>
  have hf : s.fault.set = false := by simpa using h
  split
  · next h1 =>
    simp only [Bool.and_eq_true, decide_eq_true_eq] at h1
    exact .backward hf h1.1 h1.2
  next h1 =>
  split
  · next h2 =>
    simp only [Bool.and_eq_true, decide_eq_true_eq] at h2
    exact .gap hf h2.1 h2.2
  · next h2 =>
    refine .accepted hf fun hv => ?_
    simp only [hv, Bool.true_and, decide_eq_true_eq] at h1 h2
    bv_omega

end Sys2Proof.Machine
end

