-- ==== Sys2Proof/Laws/Step.lean ====
section
/-! SUPPORT. The induction over a step, packaged once: what every piece of every agent keeps, a step keeps. -/

namespace Sys2Proof.Machine

/-- What the engine's two outcomes keep, its turn keeps. -/
theorem acqFinish_keeps {P : State → Prop}
    (hfin : ∀ s o, s.acq.busy = true → s.fault.set = false → P s → P (finishSearch o s))
    (hfail : ∀ s, s.acq.busy = true → s.fault.set = false → P s → P (failSearch s))
    (nm : Numerics) (s : State) (h : P s) : P (acqFinish nm s) := by
  unfold acqFinish
  split
  · next he =>
    simp only [acqFinishEnabled, Bool.and_eq_true, Bool.not_eq_true'] at he
    split
    · exact hfin _ _ he.1 he.2 h
    · exact hfail _ he.1 he.2 h
  · exact h

/-- What the pieces of a sample step keep, a sample step keeps. -/
theorem sampleStep_keeps {P : State → Prop}
    (hsrc : ∀ s k n, P s → s.fault.set = false → P (sourceFault k n s))
    (hgap : ∀ s n, P s → s.fault.set = false → P (gapStep n s))
    (htake : ∀ s n x, P s → s.fault.set = false → P (takeSample n x s))
    (hdone : ∀ nm n x c s C, s.ch[c].active = true → (chanStep nm n x s.ch[c]).chan = some C → P s →
      P (chanDone c (chanStep nm n x s.ch[c]) C s))
    (hfault : ∀ nm n x c s, s.ch[c].active = true → (chanStep nm n x s.ch[c]).chan = none → P s →
      P (chanFault c n (chanStep nm n x s.ch[c]) s))
    (nm : Numerics) (n : Index) (x : Cplx) (s : State) (h : P s) : P (sampleStep nm n x s) := by
  have e := sampleStep_effect nm n x s
  generalize sampleStep nm n x s = t at e ⊢
  cases e with
  | ignored => exact h
  | backward hf => exact hsrc _ _ _ h hf
  | gap hf => exact hgap _ _ h hf
  | accepted hf =>
    exact runChannels_keeps (P := P) (fun c s C a b d => hdone nm n x c s C a b d)
      (fun c s a b d => hfault nm n x c s a b d) _ _ (htake _ _ _ h hf)

/-- A predicate that every piece of every agent's step keeps is kept by a step. -/
theorem step_keeps {P : State → Prop}
    (hpop : ∀ s rest, P s → P (s.popInput rest))
    (hresp : ∀ (s : State) r, P s → P { s with hostResp := r })
    (hread : ∀ (s : State) r l, P s → P { s with hostResp := r, sidxHiLatch := l })
    (hwrite : ∀ (s : State) r v, P s → P { s with regs := s.regs.store r v, hostResp := .done })
    (hcmd : ∀ s t, P s → CommandEffect s t → P t)
    (hsrc : ∀ s k n, P s → s.fault.set = false → P (sourceFault k n s))
    (hgap : ∀ s n, P s → s.fault.set = false → P (gapStep n s))
    (htake : ∀ s n x, P s → s.fault.set = false → P (takeSample n x s))
    (hdone : ∀ nm n x c s C, s.ch[c].active = true → (chanStep nm n x s.ch[c]).chan = some C → P s →
      P (chanDone c (chanStep nm n x s.ch[c]) C s))
    (hfault : ∀ nm n x c s, s.ch[c].active = true → (chanStep nm n x s.ch[c]).chan = none → P s →
      P (chanFault c n (chanStep nm n x s.ch[c]) s))
    (hfin : ∀ s o, s.acq.busy = true → s.fault.set = false → P s → P (finishSearch o s))
    (hfail : ∀ s, s.acq.busy = true → s.fault.set = false → P s → P (failSearch s)) :
    ∀ s t, P s → step s = .next t → P t := by
  have hacq := acqFinish_keeps hfin hfail
  have hsamp := sampleStep_keeps hsrc hgap htake hdone hfault
  intro s t h hs
  unfold step scheduledStep at hs
  split at hs
  · cases hs; exact hacq _ _ h
  · next i rest _ =>
    have h' := hpop s rest h
    generalize s.popInput rest = s1 at hs h'
    cases i with
    | read off width =>
      cases hs
      rw [regRead_frame]; exact hread _ _ _ h'
    | write off width v =>
      simp only [agentStep, hostWrite] at hs
      split at hs
      · cases hs; exact hresp _ _ h'
      · obtain ⟨t', e, he⟩ := execWord_effect v { s1 with hostResp := .done }
        rw [e] at hs; cases hs
        exact hcmd _ _ (hresp _ _ h') he
      · cases hs
        unfold regWrite
        split
        · exact hwrite _ _ _ h'
        · exact hresp _ _ h'
    | sample n x => cases hs; exact hsamp _ _ _ _ h'
    | raw n b =>
      cases hs
      unfold rawStep
      split
      · exact h'
      · next hf =>
        split
        · exact hsamp _ _ _ _ h'
        · exact hsrc _ _ _ h' (by simpa using hf)
    | acqFinish => cases hs; exact hacq _ _ h'

end Sys2Proof.Machine
end

