-- ==== Sys2Proof/Tests/Slice0.lean ====
section
/-! SUPPORT. Tests on fixed values. Expected values come from 95_test_vectors.md (the vector is named) or from a rule; the
`witness_` theorems show, for each statement with hypotheses, operands and states that meet them, clause by clause. -/

namespace Sys2Proof.Tests

open Sys2Proof Sys2Proof.Machine

/-! ### Well-formedness: an ill-formed term for each check -/

theorem test_acq_sv_zero_ill_formed : (Instr.acq false 0).wellFormed = false := by decide

theorem test_acq_sv_33_ill_formed : (Instr.acq true 33).wellFormed = false := by decide

theorem test_tseed_channel_ten_ill_formed : (Instr.tseed 10 1).wellFormed = false := by decide

theorem test_tseed_sv_zero_ill_formed : (Instr.tseed 0 0).wellFormed = false := by decide

theorem test_tstop_channel_ten_ill_formed : (Instr.tstop 10).wellFormed = false := by decide

theorem test_operands_at_their_limits_well_formed :
    (Instr.acq true 32).wellFormed ∧ (Instr.tseed 9 1).wellFormed ∧ (Instr.tstop 9).wellFormed := by decide

/-! ### Decoding: words written out from R81 and R83 (V31), and words that match no row (V32) -/

theorem test_decode_nop : decode 0b00000000000000000000000000000000#32 = .ok .nop := by decide

theorem test_decode_wcap : decode 0b00010000000000000000000000000000#32 = .ok .wcap := by decide

theorem test_decode_acq_cold : decode 0b00010001000000000000000100000101#32 = .ok (.acq true 5) := by decide

theorem test_decode_acqabort : decode 0b00010010000000000000000000000000#32 = .ok .acqabort := by decide

theorem test_decode_tseed : decode 0b00100000000010010000000000100000#32 = .ok (.tseed 9 32) := by decide

theorem test_decode_tstop : decode 0b00100001000000110000000000000000#32 = .ok (.tstop 3) := by decide

theorem test_decode_sreset : decode 0b01111111000000000000000000000000#32 = .ok .sreset := by decide

theorem test_decode_bytes_little_endian : decodeBytes [0x05, 0x01, 0x00, 0x11] = .ok (.acq true 5) := by decide

theorem test_decode_table_word : decodeTableWord 32 0x20090020 = some (.tseed 9 32) := by decide

theorem test_reserved_op_refused : decode 0x01000000 = .error (.reservedOp 0x01) := by decide

theorem test_must_be_zero_refused :
    decode 0x11000205 = .error (.mustBeZero 0x11) ∧ decode 0x20100001 = .error (.mustBeZero 0x20) ∧
    decode 0x7F000001 = .error (.mustBeZero 0x7F) := by decide

/-! ### Small states -/

/-- Reset with the lowest legal sample rate written (the start of the vectors). -/
def cfg : State := { State.reset with regs := { Regs.reset with sampleRate := 2046000 } }

/-- The same with a fault latched. -/
def faulted : State := { cfg with fault := { set := true, code := 4 } }

/-- A capture has just been started. -/
def capturing : State :=
  { cfg with win := { Win.reset with capturing := true, fs := 2046000, n := 2046, k := 10 } }

/-- A window is valid (its contents do not matter here). -/
def windowed : State :=
  { cfg with win := { Win.reset with valid := true, fs := 2046000, n := 2046, k := 10, count := 20460 } }

/-- A search for SV 5 is running. -/
def searching : State :=
  { windowed with acq := { Acq.reset with busy := true, sv := 5, range := 5000, step := 200 } }

/-- An active channel record on an SV. -/
def tracker (sv : BitVec 6) : Channel :=
  { Channel.reset with st := .acquired, sv := sv, fs := 2046000, rate := 1023000 }

/-- Channel 0 tracks SV 1. -/
def tracking : State := cfg.setChan 0 (tracker 1)

/-- Two samples have been accepted. -/
def sampled (s : State) : State := { s with sidx := 2, sidxValid := true }

/-- The state a step answers, where it answers one. -/
def result (r : StepResult) : Option State :=
  match r with
  | .next t => some t
  | _ => none

/-- CMDSTAT after a command word. -/
def cmdStatOf (w : Word) (s : State) : Option CmdStat := (result (execWord w s)).map fun t => t.cmdStat

/-! ### Commands -/

theorem test_nop_in_fault_state : cmdStatOf 0x00000000 faulted = some .faulted := by decide  -- V42

theorem test_wcap_status : (result (step (cfg.withFetchWord 32 0x10000000))).map statusWord = some 0x00000002 := by
  decide  -- the example of R110

theorem test_wcap_on_reset_faults :  -- V40
    (result (execWord 0x10000000 State.reset)).map (fun t => (statusWord t, t.cmdStat, t.events)) =
      some (0x00000220, .faulted, [{ kind := .error, svId := 0, stage := .acquirer, err := .configInvalid, t := 0 }]) := by
  decide

theorem test_acq_refusals :  -- V41, V43
    cmdStatOf 0x11000000 State.reset = some .illegal ∧ cmdStatOf 0x11000001 cfg = some .noWindow ∧
    cmdStatOf 0x11000001 capturing = some .noWindow ∧ cmdStatOf 0x11000002 searching = some .busy := by decide

theorem test_acq_cold_range :  -- R112
    (result (execWord 0x11000105 windowed)).map (fun t => (t.acq.range, t.acq.sv, t.acq.busy)) =
      some (10000, 5, true) := by decide

theorem test_acqabort_not_busy : cmdStatOf 0x12000000 cfg = some .notBusy := by decide  -- V43

theorem test_acqabort_cancels :  -- V43
    (result (execWord 0x12000000 searching)).map (fun t => (regValue t .acqResStatus, t.acq.done, t.reports, t.events)) =
      some (3, true, [], []) := by decide

theorem test_tseed_refusals :  -- V29
    cmdStatOf 0x20000002 tracking = some .chBusy ∧ cmdStatOf 0x20010001 tracking = some .dupSv ∧
    cmdStatOf 0x20010002 { tracking with regs := { tracking.regs with maxTracked := 1 } } = some .slotsFull ∧
    cmdStatOf 0x20000001 { cfg with regs := { cfg.regs with seedCphase := 2046 } } = some .badSeed ∧
    cmdStatOf 0x20000001 { cfg with regs := { cfg.regs with seedCphase := 2045 } } = some .ok := by decide +kernel

theorem test_tseed_config_fault_event :  -- V41
    (result (execWord 0x20000007 State.reset)).map (fun t => t.events) =
      some [{ kind := .error, svId := 7, stage := .tracker, err := .configInvalid, t := 0 }] := by decide

theorem test_tstop : cmdStatOf 0x21000000 cfg = some .chIdle ∧ cmdStatOf 0x21000000 tracking = some .ok := by
  decide +kernel  -- V29

theorem test_sreset_leaves_fault :  -- V42
    (result (execWord 0x7F000000 faulted)).map (fun t => (statusWord t, t.cmdStat, t.regs.sampleRate)) =
      some (0, .ok, 0) := by decide

/-! ### Registers -/

theorem test_reset_registers :  -- V30
    regValue State.reset .id = 0x47595037 ∧ regValue State.reset .centerFreq = 0x5DE70060 ∧
    regValue State.reset .status = 0 := by decide

theorem test_sample_fmt_write :  -- V33
    (result (agentStep default (.write 0x14 32 0xFFFFFFFE) cfg)).map (fun t => t.regs.sampleFmt) = some 2 := by decide

theorem test_bad_accesses :  -- V33
    (regRead 0xD0 32 cfg).hostResp = .busError ∧ (regRead 0x02 32 cfg).hostResp = .busError ∧
    (regWrite .id 1 cfg).hostResp = .busError := by decide

theorem test_prn_readback :  -- V7
    prnDataWord 0x00010000 = 1 ∧ prnDataWord 0x00010002 = 0 ∧ prnDataWord 0x000103FF = 0x80000000 ∧
    prnDataWord 0x00000000 = 0x80000000 ∧ prnDataWord 0x00210000 = 0x80000000 := by decide

theorem test_uq16 : uq16 0x00028000 = 5 / 2 ∧ uq16 0x00008000 = 1 / 2 ∧ Script.uq (5 / 2) = 0x00028000 := by
  decide +kernel  -- V34

/-! ### PRN generator -/

theorem test_first_chips_sv1 :  -- V1
    (List.range 32).map (fun i => (ca 1 i).toNat) =
      [1, 1, 0, 0, 1, 0, 0, 0, 0, 0, 1, 1, 1, 0, 0, 1, 0, 1, 0, 0, 1, 0, 0, 1, 1, 1, 1, 0, 0, 1, 0, 1] := by decide

theorem test_resampling_2500 : (List.range 8).map (fun k => k * 1023 / 2500) = [0, 0, 0, 1, 1, 2, 2, 2] ∧
    (List.range 6).map (prnResampled 1 2046) = [-1, -1, -1, -1, 1, 1] := by decide  -- V6

/-! ### Samples -/

theorem test_first_sample :  -- V35
    (result (agentStep default (.sample 100 { re := 1, im := 0 }) cfg)).map (fun t => (t.sidx, statusWord t)) =
      some (101, 0x00000040) := by decide

theorem test_gap :  -- V44
    (result (agentStep default (.sample 5 { re := 1, im := 0 }) (sampled cfg))).map (fun t => (t.sidx, t.events)) =
      some (6, [{ kind := .error, svId := 0, stage := .source, err := .sampleSourceOverrun, t := 5 }]) := by decide

theorem test_index_backwards :  -- V45
    (result (agentStep default (.sample 1 { re := 1, im := 0 }) (sampled cfg))).map
      (fun t => (statusWord t, t.sidx, t.events)) =
      some (0x00000460, 2,
        [{ kind := .error, svId := 0, stage := .source, err := .internalInvariant, t := 1 }]) := by decide

theorem test_raw_formats :  -- V36, byte b0 lowest
    decodeRawWith (255 / 2) 0 0x807F = .sample { re := 127, im := -128 } ∧
    decodeRawWith (255 / 2) 1 0xFF00 = .sample { re := -255 / 2, im := 255 / 2 } ∧
    decodeRawWith 0 2 0xBF0000003F800000 = .sample { re := 1, im := -1 / 2 } ∧
    decodeRawWith 0 2 0x000000007FC00000 = .bad .internalInvariant := by decide +kernel

/-! ### Acquisition and tracking arithmetic -/

theorem test_bins_500_200 : (List.range (binCount 500 200)).map (binFreq 500 200) = [-400, -200, 0, 200, 400] ∧
    binCount 5000 300 = 33 := by decide  -- V16

theorem test_seed_phase :  -- V28: (aidx, cp_seed, n) = (0, 512, 2046), (0, 512, 0), (0, 1, 0)
    (fixPhase default 2046 { tracker 1 with phasePending := true, cpSeed := 512 }).map Channel.cp = some 767 ∧
    (fixPhase default 0 { tracker 1 with phasePending := true, cpSeed := 512 }).map Channel.cp = some 767 ∧
    (fixPhase default 0 { tracker 1 with phasePending := true, cpSeed := 1 }).map Channel.cp = some (2045 / 2) := by
  decide +kernel

theorem test_theta_after_first_sample :  -- V27
    (trackSample default 0 { re := 1, im := 0 } { tracker 1 with f := -1000, rate := 78770950 / 77 }).map
      (fun r => (r.1.theta, r.2)) = some (2045 / 2046, 0) := by decide +kernel

theorem test_code_rate_half_chip_early :  -- V21
    (codeLoop default { tracker 1 with ie := 2046, ip := 1022, il := -2, gdll := 2 }).map Channel.rate =
      some (1023000 + 511 / 256) := by decide +kernel

theorem test_lock_statistic :  -- V24
    let buf : List Cplx := List.replicate 200 { re := 10, im := 10 }
    lockBelow default 2 buf = some true ∧ lockBelow default 1 buf = some false ∧
    lockBelow default 0 buf = some false := by decide +kernel

/-! ### Witnesses: encoding and commands -/

theorem witness_DecodeEncodeAgree : decode 0x2009003F = .ok (.tseed 9 63) := by decide

theorem witness_illegal_row : IllegalWord 0x01000000 ∧ IllegalWord 0x7F000001 := by
  unfold IllegalWord; exact ⟨.inl (by decide), .inl (by decide)⟩

theorem witness_illegal_operand :
    IllegalWord 0x11000000 ∧ IllegalWord 0x20000021 ∧ IllegalWord 0x200A0001 ∧ IllegalWord 0x210A0000 := by
  unfold IllegalWord
  exact ⟨.inr (.inl (by decide)), .inr (.inl (by decide)), .inr (.inr (by decide)), .inr (.inr (by decide))⟩

theorem witness_IllegalWordsAreRefused :
    (cfg.fault.set = false ∧ faulted.fault.set = true ∧ (0x7F000001#32 : Word) ≠ 0x7F000000#32) ∧
    ∀ op ∈ [0x01#8, 0x0F#8, 0x13#8, 0x1F#8, 0x22#8, 0x7E#8, 0x80#8, 0xFF#8], ReservedOp op := by
  unfold ReservedOp; decide

theorem witness_StepRunsDecodedCommand :
    (({ cfg with inputs := [.write 0x04 32 0x10000000] } : State).inputs = .write 0x04 32 0x10000000 :: [] ∧
      decode 0x10000000 = .ok .wcap) ∧
    (0x7F000000 < 2 ^ 32 ∧ decodeTableWord 32 0x7F000000 = some .sreset) ∧
    decodeTableWord 32 0x00000000 = some .nop ∧ cfg.inputs = [] ∧
    (∃ s : State, s.inputs = .write 0x14 32 1 :: [] ∧ 0x14 = RegName.sampleFmt.offset ∧ RegName.sampleFmt ≠ .cmd) ∧
    (∃ s : State, s.inputs = .write 0x04 16 0 :: [] ∧ ∀ r : RegName, ¬((16 : Nat) = 32 ∧ 0x04 = r.offset)) ∧
    (∃ s : State, s.inputs = .read 0x04 32 :: []) ∧ (∃ s : State, s.inputs = .sample 0 ⟨1, 0⟩ :: []) ∧
    (∃ s : State, s.inputs = .raw 0 0x807F :: []) ∧ ∃ s : State, s.inputs = .acqFinish :: [] :=
  ⟨by decide, by decide, by decide, rfl, ⟨{ cfg with inputs := _ }, rfl, by decide⟩,
    ⟨{ cfg with inputs := _ }, rfl, fun _ h => absurd h.1 (by decide)⟩, ⟨{ cfg with inputs := _ }, rfl⟩, ⟨{ cfg with inputs := _ }, rfl⟩,
    ⟨{ cfg with inputs := _ }, rfl⟩, ⟨{ cfg with inputs := _ }, rfl⟩⟩

theorem witness_NopClearsCmdStat : faulted.fault.set = true ∧ cfg.fault.set = false := by decide

theorem witness_WcapStartsCapture :
    faulted.fault.set = true ∧
    (searching.fault.set = false ∧ cfgOk searching.regs = true ∧ searching.acq.busy = true) ∧
    (capturing.fault.set = false ∧ cfgOk capturing.regs = true ∧ capturing.win.capturing = true) ∧
    (cfg.fault.set = false ∧ cfgOk cfg.regs = true ∧ cfg.acq.busy = false ∧ cfg.win.capturing = false) := by decide

theorem witness_AcqStartsSearch :
    faulted.fault.set = true ∧
    (cfg.fault.set = false ∧ (0 : BitVec 6).toNat = 0 ∧ 32 < (33 : BitVec 6).toNat) ∧
    (1 ≤ (1 : BitVec 6).toNat ∧ (32 : BitVec 6).toNat ≤ 32) ∧
    (searching.fault.set = false ∧ cfgOk searching.regs = true ∧ searching.acq.busy = true) ∧
    (cfgOk cfg.regs = true ∧ cfg.acq.busy = false ∧ cfg.win.valid = false) ∧
    (windowed.fault.set = false ∧ cfgOk windowed.regs = true ∧ windowed.acq.busy = false ∧
      windowed.win.valid = true) := by decide

theorem witness_AcqabortCancels :
    faulted.fault.set = true ∧ (searching.fault.set = false ∧ searching.acq.busy = true) ∧
    (capturing.fault.set = false ∧ capturing.acq.busy = false ∧ capturing.win.capturing = true) ∧
    (cfg.fault.set = false ∧ cfg.acq.busy = false ∧ cfg.win.capturing = false) := by decide

theorem witness_TseedSeedsChannel :
    faulted.fault.set = true ∧
    (cfg.fault.set = false ∧ 9 < (10 : BitVec 4).toNat ∧ (0 : BitVec 6).toNat = 0 ∧ 32 < (33 : BitVec 6).toNat) ∧
    ((9 : Chan).val = (9 : BitVec 4).toNat ∧ 1 ≤ (1 : BitVec 6).toNat ∧ (32 : BitVec 6).toNat ≤ 32 ∧
      cfgOk cfg.regs = true) ∧
    (tracking.fault.set = false ∧ tracking.ch[(0 : Chan)].active = true) ∧
    (let s : State := { tracking with regs := { tracking.regs with maxTracked := 1 } }
     cfgOk s.regs = true ∧ s.ch[(1 : Chan)].active = false ∧ s.regs.maxTracked.toNat ≤ nActive s) ∧
    (tracking.ch[(1 : Chan)].active = false ∧ nActive tracking < tracking.regs.maxTracked.toNat ∧
      ∃ d : Chan, d ≠ 1 ∧ tracking.ch[d].active = true ∧ tracking.ch[d].sv = 1) ∧
    ((∀ d : Chan, d ≠ 1 → tracking.ch[d].active = true → tracking.ch[d].sv ≠ 2) ∧
      tracking.regs.seedCphase.toNat < tracking.regs.sampleRate.toNat / 1000) ∧
    (let r : Regs := { tracking.regs with seedCphase := 2046 }
     cfgOk r = true ∧ r.sampleRate.toNat / 1000 ≤ r.seedCphase.toNat) := by decide +kernel

theorem witness_TstopReleasesChannel :
    faulted.fault.set = true ∧ (cfg.fault.set = false ∧ 9 < (10 : BitVec 4).toNat) ∧
    ((9 : Chan).val = (9 : BitVec 4).toNat ∧ cfg.ch[(9 : Chan)].st = .idle) ∧
    (tracking.fault.set = false ∧ (0 : Chan).val = (0 : BitVec 4).toNat ∧ tracking.ch[(0 : Chan)].st = .acquired) := by
  decide +kernel

theorem witness_SresetRestoresReset : opField 0x7F000001 = 0x7F#8 ∧ (0x7F000001#32 : Word) ≠ 0x7F000000#32 := by decide

theorem witness_ConfigInvalidFaultsTheCommand :
    (State.reset.fault.set = false ∧ cfgOk State.reset.regs = false) ∧
    cfgOk { cfg.regs with sampleRate := 2045000 } = false ∧ cfgOk { cfg.regs with acqK := 10001 } = false ∧
    (1 ≤ (1 : BitVec 6).toNat ∧ (32 : BitVec 6).toNat ≤ 32 ∧ (9 : BitVec 4).toNat ≤ 9) := by decide

theorem witness_TseedKeepsSlotLimit :
    (result (exec (.tseed 9 32) tracking)).map (fun t => (t.cmdStat, nActive t)) = some (.ok, 2) := by decide +kernel

/-! ### Witnesses: registers and PRN -/

theorem witness_RegWriteStoresMasked :
    RegName.sampleFmt.access = .rw ∧ RegName.prnSel.access = .rw ∧ RegName.cmd.access = .wo ∧
    RegName.id.access = .ro := by decide

theorem witness_BadAccessIsBusError :
    ((16 : Nat) ≠ 32 ∧ 0x0E % 4 ≠ 0 ∧ 0xD0 ≤ 0xD0) ∧
    (RegName.chEpochs 9).access = .ro ∧ 0xCC = (RegName.chEpochs 9).offset := by decide

theorem witness_SidxPairReadsOneValue :
    let s : State := { cfg with sidx := 0x100000000 }
    (regRead RegName.sidxLo.offset 32 s).sidxHiLatch = 1 := by decide

theorem witness_PrnDataReadsChip :
    (let sel : Word := 0x002003FE  -- SV 32, chip 1022
     1 ≤ (sel.extractLsb' 16 6 : BitVec 6).toNat ∧ (sel.extractLsb' 16 6 : BitVec 6).toNat ≤ 32 ∧
       (sel.extractLsb' 0 10).toNat ≤ 1022) ∧
    (let sel : Word := 0x002103FF
     ¬(sel.extractLsb' 16 6 : BitVec 6).toNat ≤ 32 ∧ ¬(sel.extractLsb' 0 10).toNat ≤ 1022) ∧
    prn 1 0 = -1 ∧ prn 1 2 = 1 := by decide

theorem witness_CodesAreBalanced : svLegal 1 = true ∧ svLegal 32 = true := by decide

theorem witness_ResamplingKeepsEveryChip : 2046 ≤ 2046 ∧ 2045 < 2046 ∧ 1022 < 1023 := by decide

/-! ### Witnesses: acquisition -/

theorem witness_CaptureStoresSample :
    cfg.win.capturing = false ∧ capturing.win.capturing = true ∧
    capturing.win.count + 1 ≠ capturing.win.k * capturing.win.n ∧
    (let w : Win := { capturing.win with count := 20459 }
     w.capturing = true ∧ w.count + 1 = w.k * w.n) := by decide

theorem witness_DopplerBinsAreMultiplesOfStep : 1 ≤ 1 ∧ 199 < 200 ∧ binCount 199 200 = 1 := by decide

/-- A window of two samples, one block of two. -/
def smallWin : Win :=
  { Win.reset with valid := true, fs := 2000, n := 2, k := 1, count := 2, data := [(0, ⟨3, 0⟩), (1, ⟨1, 0⟩)] }

theorem witness_PowerGridHoldsEveryPower :
    powerGrid default smallWin (fun n => if n = 0 then 1 else -1) 0 1 = some [[4, 4]] ∧ binCount 0 1 = 1 ∧
    smallWin.n = 2 := by decide +kernel

theorem unbounded_default : unboundedNumerics default := fun _ => rfl

theorem witness_PowerIsSumOfSquaredCorrelations : unboundedNumerics default ∧ smallWin.fs ≠ 0 :=
  ⟨unbounded_default, by decide⟩

theorem witness_PowerInvariances :
    unboundedNumerics default ∧ power default smallWin (fun _ => 1) 0 0 = some 16 ∧
    (let w' : Win := { smallWin with data := [(0, ⟨0, 6⟩), (1, ⟨0, 2⟩)] }
     let a : Cplx := ⟨0, 2⟩
     w'.fs = smallWin.fs ∧ w'.n = smallWin.n ∧ w'.k = smallWin.k ∧
       ∀ p, p < smallWin.k * smallWin.n →
         (w'.sampleAt p).re = a.re * (smallWin.sampleAt p).re - a.im * (smallWin.sampleAt p).im ∧
         (w'.sampleAt p).im = a.re * (smallWin.sampleAt p).im + a.im * (smallWin.sampleAt p).re) :=
  ⟨unbounded_default, by decide +kernel, by decide +kernel⟩

/-- A search result over an array of two bins of two phases. -/
def twoBins : List (List Scalar) := [[1, 2], [5, 5]]

theorem witness_PeakIsFirstMaximum :
    (decideSearch { (default : Numerics) with isNumber := fun _ => true } 1 twoBins).map (fun o => (o.cell, o.second, o.ok)) =
      some ({ bin := 1, phase := 0, val := 5 }, 2, true) ∧ gridEntry twoBins 1 1 = some 5 := by decide +kernel

theorem witness_SecondPeakAndDecision :
    (decideSearch default 3 twoBins).map (fun o => (o.second, o.ok)) = some (2, false) ∧
    (decideSearch default 3 [[5, 5]]).map (fun o => (o.second, o.ok, o.snr)) = some (0, true, none) ∧
    gridEntry twoBins 0 1 = some 2 := by decide +kernel

theorem witness_ZeroWindowSearchFails :
    unboundedNumerics default ∧ 0 < smallWin.n ∧ 0 < smallWin.fs ∧
    (let w : Win := { smallWin with data := [(0, ⟨0, 0⟩), (1, ⟨0, 0⟩)] }
     ∀ p, p < w.k * w.n → w.sampleAt p = { re := 0, im := 0 }) :=
  ⟨unbounded_default, by decide, by decide, by decide +kernel⟩

/-- A search for SV 1 over the small window, in the one bin 0 Hz. -/
def smallSearch : State :=
  { cfg with win := smallWin, acq := { Acq.reset with busy := true, sv := 1, range := 0, step := 1, thr := 1 } }

/-- A `NUM` whose numbers lie below 2. -/
def narrow : Numerics := { (default : Numerics) with isNumber := fun x => decide (x < 2) }

theorem witness_AcqFinishReportsResult :
    search narrow smallSearch.win smallSearch.acq = none ∧ cfg.acq.busy = false ∧ faulted.fault.set = true ∧ smallSearch.acq.busy = true ∧ smallSearch.fault.set = false ∧
    (search default smallSearch.win smallSearch.acq).map (fun o => (o.cell.val, o.ok)) = some (4, true) := by
  decide +kernel

theorem witness_AcqFinishIsPure :
    let t : State := { smallSearch with
      cmdStat := .busy, freeCount := 3
      acq := { smallSearch.acq with done := true, res := { smallSearch.acq.res with status := .failed, doppler := 7 } } }
    smallSearch.win = t.win ∧ (smallSearch.acq.busy = t.acq.busy ∧ smallSearch.acq.sv = t.acq.sv ∧
      smallSearch.acq.range = t.acq.range ∧ smallSearch.acq.step = t.acq.step ∧ smallSearch.acq.thr = t.acq.thr) ∧
    smallSearch.fault = t.fault ∧ smallSearch.acq ≠ t.acq ∧ smallSearch.acq.busy = true ∧
    (acqFinish default smallSearch).fault.set = false := by decide +kernel

theorem witness_RunningSearchFinishes :
    smallSearch.inputs = [] ∧ smallSearch.acq.busy = true ∧ smallSearch.fault.set = false := by decide

/-! ### Witnesses: tracking -/

theorem witness_FirstSampleFixesCodePhase :
    (let C : Channel := { tracker 1 with phasePending := true }
     C.phasePending = true ∧ C.fs ≠ 0 ∧ (fixPhase default 0 C).isSome = true) ∧ unboundedNumerics default :=
  ⟨by decide +kernel, unbounded_default⟩

theorem witness_SampleAdvancesChannel :
    (unboundedNumerics default ∧ (tracker 1).fs ≠ 0 ∧ (tracker 1).phasePending = false) ∧
    ({ tracker 1 with phasePending := true } : Channel).phasePending = true ∧
    trackSample default 0 ⟨1, 0⟩ { tracker 1 with fs := 0 } = none ∧
    (trackSample default 0 ⟨1, 0⟩ (tracker 1)).map Prod.snd = some 0 ∧
    (trackSample default 0 ⟨1, 0⟩ { tracker 1 with cp := 2045 / 2 }).map Prod.snd = some 1 :=
  ⟨⟨unbounded_default, by decide, by decide⟩, by decide +kernel⟩

theorem witness_ReplicaChipsWrapAtTheEdges :
    ((0 : Scalar) ≤ 0 ∧ (0 : Scalar) < 1023 ∧ (0 : Scalar) < 1 / 2) ∧
    ((2045 / 2 : Scalar) ≤ 2045 / 2 ∧ (2045 / 2 : Scalar) < 1023) ∧
    (((1021 : Nat) : Scalar) + 1 / 2 ≤ 2043 / 2 ∧ (2043 / 2 : Scalar) < ((1021 : Nat) : Scalar) + 3 / 2) := by
  decide +kernel

theorem witness_PhaseDiscriminatorIsCostas :
    unboundedNumerics default ∧ ((-3 : Scalar) ≠ 0 ∧ (0 : Scalar) < 5 ∧ (-5 : Scalar) < 0) :=
  ⟨unbounded_default, by decide +kernel⟩

theorem witness_CarrierLoopEquations :
    phaseError default (tracker 1).ip (tracker 1).qp = some 0 ∧ (carrierLoop default (tracker 1)).isSome = true ∧
    (tracker 1).wn = 0 ∧ (tracker 1).pint = 0 := by decide +kernel

theorem witness_CodeLoopEquations :
    let C : Channel := { tracker 1 with ie := 3 }
    codeError default C = some 1 ∧ (codeLoop default C).isSome = true ∧ codeError default (tracker 1) = some 0 := by
  decide +kernel

theorem witness_LockStatistic :
    lockBelow default 1 [⟨0, 1⟩] = some true ∧ lockBelow default 1 [⟨1, 0⟩] = some false ∧
    lockBelow default 0 [⟨0, 1⟩] = some false := by decide +kernel

/-- A channel in PULL_IN or LOCKED whose epoch is about to end. -/
def aligned (st : ChState) (pull : BitVec 9) (below : BitVec 11) : Channel :=
  { tracker 1 with st := st, aligned := true, pullCnt := pull, belowCnt := below, cp := 2045 / 2, ip := 1, qp := 1,
                   pbuf := [⟨1, 1⟩], thr := 2 }

theorem witness_DumpEmitsOnePrompt :
    (tracker 1).aligned = false ∧ (aligned .pullIn 0 0).aligned = true ∧
    (dump default 0 (aligned .pullIn 0 0)).chan.isSome = true ∧ (aligned .pullIn 0 0).pbuf.length < 1000 ∧
    (let C : Channel := { aligned .pullIn 0 0 with pbuf := List.replicate 1000 ⟨1, 1⟩ }
     C.pbuf.length = 1000 ∧ (dump default 0 C).chan.isSome = true) := by decide +kernel

theorem witness_DumpRunsStateMachine :
    ((aligned .pullIn 499 0).pullCnt + 1 = 500 ∧ (dump default 0 (aligned .pullIn 499 0)).chan.isSome = true) ∧
    ((aligned .pullIn 498 0).pullCnt + 1 ≠ 500 ∧ (dump default 0 (aligned .pullIn 498 0)).chan.isSome = true) ∧
    ((dump default 0 (aligned .locked 0 1999)).chan.map Channel.belowCnt = some 2000) ∧
    ((dump default 0 (aligned .locked 0 1998)).chan.map Channel.belowCnt = some 1999) := by decide +kernel

/-! ### Witnesses: sample port -/

/-- Channel 0 tracks SV 1; channel 1 is in a state that no run reaches, with a rate of 0, so its step has no number. -/
def broken : State := tracking.setChan 1 { tracker 2 with fs := 0 }

theorem witness_ChannelsRunIndependently :
    (tracking.fault.set = false ∧ tracking.sidxValid = false) ∧
    ((sampled tracking).sidxValid = true ∧ (2 : Index) = (sampled tracking).sidx) ∧
    (acceptSample default 0 ⟨1, 0⟩ tracking).fault.set = false ∧ tracking.ch[(0 : Chan)].active = true ∧
    tracking.ch[(9 : Chan)].active = false := by decide +kernel

theorem witness_NumericExceptionFaultsChannel :
    broken.fault.set = false ∧ broken.ch[(1 : Chan)].active = true ∧
    (chanStep default 0 ⟨1, 0⟩ broken.ch[(1 : Chan)]).chan = none ∧
    ∀ d : Chan, d < 1 → broken.ch[d].active = true → (chanStep default 0 ⟨1, 0⟩ broken.ch[d]).chan ≠ none := by
  decide +kernel

theorem witness_SampleWithoutChannels :
    (cfg.fault.set = false ∧ cfg.sidxValid = false ∧ ∀ c : Chan, cfg.ch[c].active = false) ∧
    ((sampled cfg).sidxValid = true ∧ (2 : Index) = (sampled cfg).sidx) := by decide

theorem witness_GapUnlocksChannels :
    let s := sampled { tracking with win := capturing.win }
    s.fault.set = false ∧ s.sidxValid = true ∧ s.sidx < 3 ∧ s.ch[(0 : Chan)].active = true ∧
    s.win.capturing = true := by decide +kernel

theorem witness_BackwardIndexFaults :
    (sampled cfg).fault.set = false ∧ (sampled cfg).sidxValid = true ∧ (1 : Index) < (sampled cfg).sidx := by decide

theorem witness_RawSampleFormats :
    (float32Value 0x3F800000 = some 1 ∧ float32Value 0x7F800000 = none ∧ (0#8 : BitVec 8) ≠ 255#8) ∧
    (cfg.fault.set = false ∧ decodeRaw cfg 0x807F = .sample { re := 127, im := -128 }) ∧
    (let s : State := { cfg with regs := { cfg.regs with sampleFmt := 3 } }
     s.fault.set = false ∧ decodeRaw s 0 = .bad .configInvalid) := by decide +kernel

/-! ### Witnesses: the whole machine -/

/-- The capturing state with a sample still to come. -/
def feeding (s : State) : State := { s with inputs := [.sample 0 { re := 1, im := 0 }] }

theorem witness_StepKeepsWindowSound :
    WindowSound (feeding capturing) ∧ (result (step (feeding capturing))).map (fun t => t.win.count) = some 1 := by
  refine ⟨⟨⟨by decide, by decide, by decide, by decide, ?_, by decide⟩, by decide, by decide⟩, by decide⟩
  intro _ p hp
  exact absurd hp (Nat.not_lt_zero p)

/-- The state whose next step seeds channel 9 with SV 32. -/
def seeding : State := cfg.withFetchWord 32 0x20090020

theorem witness_StepKeepsTrackSound :
    TrackSound seeding ∧ (result (step seeding)).map (fun t => t.ch[(9 : Chan)].st) = some .acquired := by
  have idle : ∀ c : Chan, seeding.ch[c] = Channel.reset := by
    intro c; simp [seeding, State.withFetchWord, cfg, State.reset]
  refine ⟨⟨fun _ c => ?_, fun _ c d h => ?_⟩, by decide +kernel⟩
  · rw [idle]; constructor <;> simp [Channel.reset, Channel.active, ChState.active]
  · rw [idle] at h; simp [Channel.reset, Channel.active, ChState.active] at h

theorem witness_StepKeepsLatchSound :
    LatchSound (State.reset.withFetchWord 32 0x10000000) ∧
    (result (step (State.reset.withFetchWord 32 0x10000000))).map (fun t => t.fault.code) = some 2 :=
  ⟨⟨by decide, by decide, by decide, by decide⟩, by decide⟩

theorem witness_TracesOnlyGrow :
    (result (step (State.reset.withFetchWord 32 0x10000000))).map (fun t => t.events.length) = some 1 := by decide

theorem witness_ChannelTransitionsFollowTable :
    TrackSound seeding ∧ seeding.fault.set = false ∧
    (result (step seeding)).map (fun t => t.fault.set) = some false :=
  ⟨witness_StepKeepsTrackSound.1, by decide, by decide +kernel⟩

theorem witness_FaultStateIsFrozen :
    (feeding faulted).fault.set = true ∧
    (∀ rest, (feeding faulted).inputs ≠ .write 0x04 32 0x7F000000#32 :: rest) ∧ (0#32 : Word) ≠ 0x7F000000#32 := by
  refine ⟨by decide, fun rest h => ?_, by decide⟩
  simp [feeding] at h

theorem witness_OnlySresetLeavesFault :
    faulted.fault.set = true ∧
    (result (step (faulted.withFetchWord 32 0x7F000000))).map (fun t => t.fault.set) = some false := by decide

end Sys2Proof.Tests
end

/-! PROOFS. The words the block computes for the host: the fields of STATUS (10_state.md R24), of CMDSTAT and CHc_STATUS
(R25, R31), and PRN_DATA (R26). -/

namespace Sys2Proof.Machine

/-! ### Codes and counts -/

theorem ResStatus.code_eq_one_iff (r : ResStatus) : r.code = 1 ↔ r = .ok := by
  cases r <;> decide

theorem CmdStat.code_le_ten (c : CmdStat) : c.code.toNat ≤ 10 := by
  cases c <;> decide

/-- The four bits of NACTIVE hold it, since there are ten channels. -/
theorem nActive_le_nch (s : State) : nActive s ≤ nch := by
  simpa [nActive] using List.countP_le_length (p := Channel.active) (l := s.ch.toList)

/-! ### The layout of the status words -/

/-- The single bits of STATUS (10_state.md R24). -/
theorem statusWord_flags (s : State) :
    (statusWord s).getLsbD 0 = s.acq.busy ∧ (statusWord s).getLsbD 1 = s.win.capturing ∧
    (statusWord s).getLsbD 2 = s.win.valid ∧ (statusWord s).getLsbD 3 = s.acq.done ∧
    (statusWord s).getLsbD 4 = decide (s.acq.res.status = .ok) ∧ (statusWord s).getLsbD 5 = s.fault.set ∧
    (statusWord s).getLsbD 6 = s.sidxValid ∧ (statusWord s).getLsbD 7 = false := by
  simp only [statusWord, BitVec.getLsbD_append]
  simp

/-- The fields of STATUS above its single bits (10_state.md R24). -/
theorem statusWord_fields (s : State) :
    (statusWord s).extractLsb' 8 4 = s.fault.shownCode ∧ (statusWord s).extractLsb' 12 4 = 0#4 ∧
    (statusWord s).extractLsb' 16 4 = BitVec.ofNat 4 (nActive s) ∧ (statusWord s).extractLsb' 20 12 = 0#12 := by
  unfold statusWord
  simp (disch := omega) only [BitVec.extractLsb'_append_eq_of_le, BitVec.extractLsb'_append_eq_of_add_le]
  simp

/-- NACTIVE as a number: nothing of the count is lost in its four bits. -/
theorem statusWord_nActive (s : State) : ((statusWord s).extractLsb' 16 4).toNat = nActive s := by
  obtain ⟨-, -, hcount, -⟩ := statusWord_fields s
  have hle : nActive s ≤ 10 := nActive_le_nch s
  rw [hcount, BitVec.toNat_ofNat, Nat.mod_eq_of_lt (by omega)]

/-- The fields of CMDSTAT (10_state.md R25). -/
theorem cmdStatWord_fields (s : State) :
    (cmdStatWord s).extractLsb' 0 4 = s.cmdStat.code ∧ (cmdStatWord s).extractLsb' 4 28 = 0#28 :=
  ⟨BitVec.extractLsb'_append_eq_right, BitVec.extractLsb'_append_eq_left⟩

/-- The fields of CHc_STATUS (10_state.md R31). -/
theorem chStatusWord_fields (c : Channel) :
    (chStatusWord c).extractLsb' 0 3 = c.st.code ∧ (chStatusWord c).extractLsb' 3 5 = 0#5 ∧
    (chStatusWord c).extractLsb' 8 6 = c.sv ∧ (chStatusWord c).getLsbD 14 = c.aligned ∧
    (chStatusWord c).extractLsb' 15 17 = 0#17 := by
  unfold chStatusWord
  simp (disch := omega) only [BitVec.extractLsb'_append_eq_of_le, BitVec.extractLsb'_append_eq_of_add_le,
    BitVec.getLsbD_append]
  simp

/-! ### PRN_DATA -/

theorem prn_eq_one_iff (sv : BitVec 6) (i : Nat) : prn sv i = 1 ↔ ca sv i = false := by
  cases h : ca sv i <;> simp [prn, h]

theorem prn_eq_neg_one_iff (sv : BitVec 6) (i : Nat) : prn sv i = -1 ↔ ca sv i = true := by
  cases h : ca sv i <;> simp [prn, h]

/-- The SV and the chip that PRN_SEL holds exist (10_state.md R26). -/
def SelectsChip (sel : Word) : Prop :=
  1 ≤ (sel.extractLsb' 16 6).toNat ∧ (sel.extractLsb' 16 6).toNat ≤ 32 ∧ (sel.extractLsb' 0 10).toNat ≤ 1022

/-- Where the selected chip exists PRN_DATA is its bit, the other 31 bits 0. -/
theorem prnDataWord_of_selects {sel : Word} (h : SelectsChip sel) :
    prnDataWord sel = (BitVec.ofBool (ca (sel.extractLsb' 16 6) (sel.extractLsb' 0 10).toNat)).setWidth 32 := by
  refine (if_pos h).trans ?_
  simp only [prn_eq_one_iff]
  cases ca (sel.extractLsb' 16 6) (sel.extractLsb' 0 10).toNat <;> rfl

/-- Elsewhere it is INVALID. -/
theorem prnDataWord_of_not_selects {sel : Word} (h : ¬ SelectsChip sel) : prnDataWord sel = 0x80000000#32 :=
  if_neg h

/-- A read of a mapped register answers its value, and only at SIDX_LO takes the latch (43_host.md R180). -/
theorem regRead_offset (r : RegName) (s : State) :
    regRead r.offset 32 s =
      { s with
        hostResp := .data (regValue s r)
        sidxHiLatch := if r = .sidxLo then highWord s.sidx else s.sidxHiLatch } := by
  unfold regRead
  rw [regOfAccess_eq_some.mpr ⟨rfl, rfl⟩]

/-! ### The obligations -/

/-- Settles O20: the layout of STATUS, whose count of active channels fits its four bits. -/
theorem statusMirrorsState : Obligations.StatusMirrorsState := by
  intro s
  obtain ⟨hbusy, hcapturing, hvalid, hdone, hok, hfault, hsidx, hzero⟩ := statusWord_flags s
  obtain ⟨hcode, hreserved, -, htop⟩ := statusWord_fields s
  have hresult : (statusWord s).getLsbD 4 = true ↔ s.acq.res.status.code = 1 := by
    rw [hok, decide_eq_true_iff, ResStatus.code_eq_one_iff]
  exact ⟨hbusy, hcapturing, hvalid, hdone, hresult, hfault, hsidx, hzero, hcode, hreserved,
    statusWord_nActive s, nActive_le_nch s, htop⟩

/-- Settles O21: the layouts of CMDSTAT and CHc_STATUS, and the code tables entry by entry. -/
theorem commandAndChannelStatusWords : Obligations.CommandAndChannelStatusWords := by
  refine ⟨fun s => ?_, by decide, fun s c => chStatusWord_fields s.ch[c], by decide⟩
  obtain ⟨hcode, hreserved⟩ := cmdStatWord_fields s
  exact ⟨hcode, hreserved, s.cmdStat.code_le_ten⟩

/-- Settles O22: PRN_DATA is the chip bit or INVALID by whether PRN_SEL selects a chip, and its read is no read of SIDX_LO. -/
theorem prnDataReadsChip : Obligations.PrnDataReadsChip := by
  intro s sv i
  refine ⟨fun h => ?_, fun h => prnDataWord_of_not_selects h, regRead_offset .prnData s⟩
  have hword : regValue s .prnData = (BitVec.ofBool (ca sv i)).setWidth 32 := prnDataWord_of_selects h
  rw [hword, prn_eq_one_iff, prn_eq_neg_one_iff]
  cases ca sv i <;> decide

end Sys2Proof.Machine

/-! PROOFS. The decoder read row by row (30_encoding.md R83), and the refusal of illegal words (R84). -/

namespace Sys2Proof

/-! ### Operands out of range -/

theorem svLegal_eq_false_iff {sv : BitVec 6} : svLegal sv = false ↔ sv.toNat = 0 ∨ 32 < sv.toNat := by
  simp only [svLegal, Bool.and_eq_false_iff, decide_eq_false_iff_not]
  omega

theorem chLegal_eq_false_iff {ch : BitVec 4} : chLegal ch = false ↔ 9 < ch.toNat := by
  simp [chLegal]

/-! ### The decoder -/

theorem OpRow.selects_iff {r : OpRow} {w : Word} : r.selects w = true ↔ w &&& r.mask = r.pattern := beq_iff_eq

/-- A word selects at most one row of the opcode map. -/
theorem opRows_unique {r r' : OpRow} {w : Word} (hr : r ∈ opRows) (hr' : r' ∈ opRows)
    (hw : r.selects w = true) (hw' : r'.selects w = true) : r = r' := by
  have : Std.Symm fun r r' : OpRow => ¬(r.selects w = true ∧ r'.selects w = true) := ⟨fun _ _ h => mt And.symm h⟩
  by_contra hne
  exact (opRows_apart.imp fun h => OpRow.apart_selects h w).forall hr hr' hne ⟨hw, hw'⟩

/-- The decoder answers the command of the row that the word selects, and nothing else. -/
theorem decode_eq_ok_iff {w : Word} {i : Instr} :
    decode w = .ok i ↔ ∃ r ∈ opRows, w &&& r.mask = r.pattern ∧ r.build w = i := by
  simp only [← OpRow.selects_iff]
  unfold decode
  split
  · next r hfind =>
    have hr := List.mem_of_find?_eq_some hfind
    have hw : r.selects w = true := List.find?_some (p := fun r : OpRow => r.selects w) hfind
    constructor
    · intro h
      exact ⟨r, hr, hw, Except.ok.inj h⟩
    · rintro ⟨r', hr', hw', rfl⟩
      rw [opRows_unique hr hr' hw hw']
  · next hfind =>
    constructor
    · intro h; cases h
    · rintro ⟨r, hr, hw, -⟩
      exact absurd hw (List.find?_eq_none.mp hfind r hr)

/-- A word that selects a row decodes to that row's command, with its operands as they stand. -/
theorem decode_of_mem {r : OpRow} {w : Word} (hr : r ∈ opRows) (hw : w &&& r.mask = r.pattern) :
    decode w = .ok (r.build w) :=
  decode_eq_ok_iff.mpr ⟨r, hr, hw, rfl⟩

theorem decode_acq {w : Word} (hw : w &&& 0xFFFFFEC0#32 = 0x11000000#32) :
    decode w = .ok (.acq (coldField w) (svField w)) :=
  decode_of_mem (r := opRows[2]) (List.getElem_mem _) hw

theorem decode_tseed {w : Word} (hw : w &&& 0xFFF0FFC0#32 = 0x20000000#32) :
    decode w = .ok (.tseed (chField w) (svField w)) :=
  decode_of_mem (r := opRows[4]) (List.getElem_mem _) hw

theorem decode_tstop {w : Word} (hw : w &&& 0xFFF0FFFF#32 = 0x21000000#32) : decode w = .ok (.tstop (chField w)) :=
  decode_of_mem (r := opRows[5]) (List.getElem_mem _) hw

/-- Only the last row of the map builds SRESET, and it compares every bit. -/
theorem opRows_build_sreset {w : Word} :
    ∀ r ∈ opRows, r.build w = .sreset → r.mask = BitVec.allOnes 32 ∧ r.pattern = 0x7F000000#32 := by
  simp [opRows]

/-- SRESET has one word. -/
theorem eq_of_decode_sreset {w : Word} (h : decode w = .ok .sreset) : w = 0x7F000000#32 := by
  obtain ⟨r, hr, hw, hbuild⟩ := decode_eq_ok_iff.mp h
  obtain ⟨hmask, hpattern⟩ := opRows_build_sreset r hr hbuild
  rwa [hmask, hpattern, BitVec.and_allOnes] at hw

/-! ### Reserved OP values -/

/-- Every row compares the whole OP field. -/
theorem opRows_mask_op : ∀ r ∈ opRows, opField r.mask = BitVec.allOnes 8 := by decide

/-- A word that selects a row has the row's OP value. -/
theorem opField_of_selects {r : OpRow} {w : Word} (hr : r ∈ opRows) (hw : w &&& r.mask = r.pattern) :
    opField w = opField r.pattern := by
  calc opField w
    _ = opField w &&& opField r.mask := by rw [opRows_mask_op r hr, BitVec.and_allOnes]
    _ = opField (w &&& r.mask) := BitVec.extractLsb'_and.symm
    _ = opField r.pattern := by rw [hw]

end Sys2Proof

namespace Sys2Proof.Machine

/-- The reserved OP values are values of no row. -/
theorem opRows_not_reservedOp : ∀ r ∈ opRows, ¬ ReservedOp (opField r.pattern) := by
  unfold ReservedOp; decide

/-! ### Refusals of commands and of words -/

theorem chanOf_eq_none {ch : BitVec 4} (h : chLegal ch = false) : chanOf ch = none :=
  dif_neg (Nat.not_lt.mpr (chLegal_eq_false_iff.mp h))

/-- In the fault state every command but SRESET is refused FAULTED, before its operands are looked at. -/
theorem exec_of_fault {i : Instr} {s : State} (hf : s.fault.set = true) (hi : i ≠ .sreset) :
    exec i s = .next (refuse .faulted s) := by
  cases i with
  | sreset => exact absurd rfl hi
  | _ => exact if_pos hf

/-- Outside the fault state a command with an operand out of range is refused ILLEGAL, before its other checks. -/
theorem exec_of_not_wellFormed {i : Instr} {s : State} (hf : s.fault.set = false) (hi : i.wellFormed = false) :
    exec i s = .next (refuse .illegal s) := by
  cases i with
  | acq cold sv =>
    have hsv : svLegal sv = false := hi
    simp [exec, execAcq, hf, hsv]
  | tseed ch sv =>
    rcases Bool.and_eq_false_iff.mp hi with hch | hsv
    · simp [exec, execTseed, hf, chanOf_eq_none hch]
    · cases hc : chanOf ch <;> simp [exec, execTseed, hf, hc, hsv]
  | tstop ch => simp [exec, execTstop, hf, chanOf_eq_none hi]
  | nop | wcap | acqabort | sreset => cases hi

theorem execWord_of_decode_ok {w : Word} {i : Instr} (h : decode w = .ok i) (s : State) :
    execWord w s = exec i s := by
  simp [execWord, h]

theorem execWord_of_decode_error {w : Word} {e : DecodeError} (h : decode w = .error e) (s : State) :
    execWord w s = .next (refuseWord s) := by
  simp [execWord, h]

/-- What an illegal word decodes to, if it decodes at all, has an operand out of range. -/
theorem IllegalWord.not_wellFormed {w : Word} {i : Instr} (hw : IllegalWord w) (hi : decode w = .ok i) :
    i.wellFormed = false := by
  rcases hw with hrow | ⟨hw | hw, hsv⟩ | ⟨hw | hw, hch⟩
  · obtain ⟨r, hr, hsel, -⟩ := decode_eq_ok_iff.mp hi
    exact absurd hsel (hrow r hr)
  · cases (decode_acq hw).symm.trans hi
    exact svLegal_eq_false_iff.mpr hsv
  · cases (decode_tseed hw).symm.trans hi
    exact Bool.and_eq_false_iff.mpr (.inr (svLegal_eq_false_iff.mpr hsv))
  · cases (decode_tseed hw).symm.trans hi
    exact Bool.and_eq_false_iff.mpr (.inl (chLegal_eq_false_iff.mpr hch))
  · cases (decode_tstop hw).symm.trans hi
    exact chLegal_eq_false_iff.mpr hch

theorem execWord_of_illegal {w : Word} {s : State} (hw : IllegalWord w) (hf : s.fault.set = false) :
    execWord w s = .next (refuse .illegal s) := by
  cases hd : decode w with
  | ok i => rw [execWord_of_decode_ok hd, exec_of_not_wellFormed hf (hw.not_wellFormed hd)]
  | error e => simp [execWord_of_decode_error hd, refuseWord, hf]

theorem illegalWord_of_reservedOp {w : Word} (h : ReservedOp (opField w)) : IllegalWord w := by
  refine .inl fun r hr hw => opRows_not_reservedOp r hr ?_
  rwa [← opField_of_selects hr hw]

/-- In the fault state every word but that of SRESET is refused FAULTED, whatever it decodes to. -/
theorem execWord_of_fault {w : Word} {s : State} (hf : s.fault.set = true) (hw : w ≠ 0x7F000000#32) :
    execWord w s = .next (refuse .faulted s) := by
  cases hd : decode w with
  | ok i =>
    have hi : i ≠ .sreset := by rintro rfl; exact hw (eq_of_decode_sreset hd)
    rw [execWord_of_decode_ok hd, exec_of_fault hf hi]
  | error e => simp [execWord_of_decode_error hd, refuseWord, hf]

/-! ### The obligation -/

/-- Settles O3: an illegal word does not decode or decodes to operands out of range, no row has a reserved OP, and the
fault state is checked first. -/
theorem illegalWordsAreRefused : Obligations.IllegalWordsAreRefused :=
  ⟨fun _ _ => execWord_of_illegal, fun _ => illegalWord_of_reservedOp, fun _ _ => execWord_of_fault⟩

end Sys2Proof.Machine

/-! PROOFS. The cancelling command of the acquisition engine (41_acquire.md R113) and its Doppler bins (R115). -/

namespace Sys2Proof.Machine

/-! ### ACQABORT -/

theorem decode_acqabort : decode 0x12000000#32 = .ok .acqabort :=
  decode_of_mem (r := opRows[3]) (List.getElem_mem _) (by decide)

/-- A running search is what ACQABORT ends, whether or not a capture runs too. -/
theorem exec_acqabort_of_busy {s : State} (hf : s.fault.set = false) (hb : s.acq.busy = true) :
    exec .acqabort s = .next (accept { s with acq := s.acq.cancel }) := by
  simp [exec, execAcqabort, hf, hb]

theorem exec_acqabort_of_capturing {s : State} (hf : s.fault.set = false) (hb : s.acq.busy = false)
    (hc : s.win.capturing = true) : exec .acqabort s = .next (accept { s with win := s.win.abandon }) := by
  simp [exec, execAcqabort, hf, hb, hc]

theorem exec_acqabort_of_idle {s : State} (hf : s.fault.set = false) (hb : s.acq.busy = false)
    (hc : s.win.capturing = false) : exec .acqabort s = .next (refuse .notBusy s) := by
  simp [exec, execAcqabort, hf, hb, hc]

/-! ### Doppler bins -/

/-- A multiple of the step lies within the range when its factor lies within `kmax`: the division is floor division. -/
theorem abs_mul_step_le_iff {range step : Nat} (hstep : 1 ≤ step) (q : Int) :
    |q * step| ≤ range ↔ |q| ≤ kmax range step := by
  have hpos : (0 : Int) < step := by omega
  rw [abs_mul, Nat.abs_cast, kmax, Int.natCast_ediv, Int.le_ediv_iff_mul_le hpos]

/-- The factors of the bins, `b − kmax` for `b < NB`, are the integers within `kmax`. -/
theorem exists_bin_factor_iff (range step : Nat) (q : Int) :
    (∃ b : Nat, b < binCount range step ∧ (b : Int) - kmax range step = q) ↔ |q| ≤ kmax range step := by
  rw [abs_le, binCount]
  constructor
  · rintro ⟨b, hb, rfl⟩
    omega
  · rintro ⟨hlow, hhigh⟩
    exact ⟨(q + kmax range step).toNat, by omega, by omega⟩

theorem exists_binFreq_iff {range step : Nat} (hstep : 1 ≤ step) (f : Int) :
    (∃ b, b < binCount range step ∧ binFreq range step b = f) ↔ (step : Int) ∣ f ∧ |f| ≤ range := by
  constructor
  · rintro ⟨b, hb, rfl⟩
    have hfactor := (exists_bin_factor_iff range step _).mp ⟨b, hb, rfl⟩
    exact ⟨dvd_mul_left _ _, (abs_mul_step_le_iff hstep _).mpr hfactor⟩
  · rintro ⟨⟨q, rfl⟩, hrange⟩
    rw [mul_comm] at hrange ⊢
    obtain ⟨b, hb, hq⟩ := (exists_bin_factor_iff range step q).mpr ((abs_mul_step_le_iff hstep q).mp hrange)
    exact ⟨b, hb, congrArg (· * (step : Int)) hq⟩

theorem binFreq_strictMono (range : Nat) {step : Nat} (hstep : 1 ≤ step) : StrictMono (binFreq range step) := by
  intro b b' hlt
  have hpos : (0 : Int) < step := by omega
  exact mul_lt_mul_of_pos_right (by omega) hpos

/-- A range below the step leaves the bin 0 Hz alone. -/
theorem bins_of_range_lt_step {range step : Nat} (h : range < step) :
    (List.range (binCount range step)).map (binFreq range step) = [0] := by
  have hk : kmax range step = 0 := Nat.div_eq_of_lt h
  simp [binCount, binFreq, hk]

/-! ### The obligations -/

/-- Settles O8: the three outcomes of ACQABORT outside the fault state, in the order of its checks. -/
theorem acqabortCancels : Obligations.AcqabortCancels :=
  ⟨decode_acqabort, fun _ =>
    ⟨fun hf => exec_of_fault hf (by decide), exec_acqabort_of_busy, exec_acqabort_of_capturing,
      exec_acqabort_of_idle⟩⟩

/-- Settles O28: a bin is its factor `b − kmax` times the step, and floor division makes the range a bound on the
factor. -/
theorem dopplerBinsAreMultiplesOfStep : Obligations.DopplerBinsAreMultiplesOfStep := by
  refine ⟨fun range step hstep => ?_, by decide, by decide, by decide⟩
  exact ⟨rfl, fun _ => rfl, exists_binFreq_iff hstep, fun _ _ hlt => binFreq_strictMono range hstep hlt,
    bins_of_range_lt_step⟩

end Sys2Proof.Machine

/-! PROOFS. The releasing command of the tracking channels (42_track.md R141). -/

namespace Sys2Proof.Machine

/-! ### Which channels are active -/

theorem Channel.active_eq_true_iff {C : Channel} :
    C.active = true ↔ C.st = .acquired ∨ C.st = .pullIn ∨ C.st = .locked := by
  unfold Channel.active
  cases C.st <;> simp

theorem Channel.active_eq_false_iff {C : Channel} : C.active = false ↔ C.st = .idle ∨ C.st = .unlocked := by
  unfold Channel.active
  cases C.st <;> simp

/-! ### The channel operand -/

/-- A channel operand in range names the channel of its number. -/
theorem chanOf_eq_some {ch : BitVec 4} {c : Chan} (h : c.val = ch.toNat) : chanOf ch = some c := by
  have hlt : ch.toNat < nch := h ▸ c.isLt
  exact (dif_pos hlt).trans (congrArg some (Fin.ext h.symm))

/-! ### TSTOP -/

/-- The word of TSTOP for a channel operand: OP 0x21 and CH in bits 19:16 (30_encoding.md R81, R83). -/
theorem decode_tstop_word (ch : BitVec 4) :
    decode (0x21000000#32 ||| (ch.setWidth 32 <<< 16)) = .ok (.tstop ch) := by
  have hrow : (0x21000000#32 ||| (ch.setWidth 32 <<< 16)) &&& 0xFFF0FFFF#32 = 0x21000000#32 := by
    revert ch; decide
  have hch : chField (0x21000000#32 ||| (ch.setWidth 32 <<< 16)) = ch := by
    revert ch; decide
  rw [decode_tstop hrow, hch]

theorem exec_tstop_of_inactive {ch : BitVec 4} {c : Chan} {s : State} (hc : c.val = ch.toNat)
    (hf : s.fault.set = false) (ha : s.ch[c].active = false) :
    exec (.tstop ch) s = .next (refuse .chIdle s) := by
  simp only [exec, execTstop, hf, chanOf_eq_some hc, ha, Bool.false_eq_true, Bool.not_false, ↓reduceIte]

theorem exec_tstop_of_active {ch : BitVec 4} {c : Chan} {s : State} (hc : c.val = ch.toNat)
    (hf : s.fault.set = false) (ha : s.ch[c].active = true) :
    exec (.tstop ch) s = .next (accept (s.setChan c { s.ch[c] with st := .idle })) := by
  simp only [exec, execTstop, hf, chanOf_eq_some hc, ha, Bool.false_eq_true, Bool.not_true, ↓reduceIte]

/-! ### The obligation -/

/-- Settles O10: the refusals of TSTOP in the order of its checks, and its effect, by whether the channel is active. -/
theorem tstopReleasesChannel : Obligations.TstopReleasesChannel := by
  refine ⟨decode_tstop_word, fun ch s => ⟨?faulted, ?illegal, fun c hc hf => ⟨?inactive, ?active⟩⟩⟩
  case faulted => exact fun hf => exec_of_fault hf nofun
  case illegal => exact fun hf hch => exec_of_not_wellFormed hf (chLegal_eq_false_iff.mpr hch)
  case inactive => exact fun hst => exec_tstop_of_inactive hc hf (Channel.active_eq_false_iff.mpr hst)
  case active => exact fun hst => exec_tstop_of_active hc hf (Channel.active_eq_true_iff.mpr hst)

end Sys2Proof.Machine

/-! PROOFS. The host port: accesses that reach no register or may not write it (43_host.md R182), and NOP (R185). -/

namespace Sys2Proof.Machine

/-! ### Which accesses reach a register -/

/-- An access that is malformed or outside the map (43_host.md R182). -/
def MalformedAccess (off width : Nat) : Prop := width ≠ 32 ∨ off % 4 ≠ 0 ∨ 0xD0 ≤ off

/-- No register has the width or the offset of a malformed access. -/
theorem regOfAccess_of_malformed {off width : Nat} (h : MalformedAccess off width) : regOfAccess off width = none := by
  rw [Option.eq_none_iff_forall_ne_some]
  intro r hr
  obtain ⟨rfl, rfl⟩ := regOfAccess_eq_some.mp hr
  obtain ⟨haligned, hmapped⟩ := offset_aligned r
  unfold MalformedAccess at h
  omega

/-! ### The outcome of an access by the register it reaches -/

theorem regRead_of_none {off width : Nat} (h : regOfAccess off width = none) (s : State) :
    regRead off width s = busError s := by
  simp only [regRead, h]

theorem hostWrite_of_none {off width : Nat} (h : regOfAccess off width = none) (v : Word) (s : State) :
    hostWrite off width v s = .next (busError s) := by
  simp only [hostWrite, h]

/-- A write that reaches a register other than CMD is `RegWrite` (43_host.md R181). -/
theorem hostWrite_of_some {off width : Nat} {r : RegName} (h : regOfAccess off width = some r) (hr : r ≠ .cmd)
    (v : Word) (s : State) : hostWrite off width v s = .next (regWrite r v s) := by
  unfold hostWrite
  split
  · next hnone => cases h.symm.trans hnone
  · next hcmd => exact absurd (Option.some.inj (h.symm.trans hcmd)) hr
  · next hsome => rw [Option.some.inj (h.symm.trans hsome)]

theorem regWrite_of_ro {r : RegName} (hr : r.access = .ro) (v : Word) (s : State) : regWrite r v s = busError s := by
  simp [regWrite, hr]

theorem RegName.ne_cmd_of_ro {r : RegName} (hr : r.access = .ro) : r ≠ .cmd := by
  rintro rfl
  cases hr

/-- A write at the offset of a read-only register is a bus error with any width: one that is not 32 bits reaches no
register, one of 32 bits reaches the register that refuses it. -/
theorem hostWrite_of_ro {r : RegName} (hr : r.access = .ro) (width : Nat) (v : Word) (s : State) :
    hostWrite r.offset width v s = .next (busError s) := by
  by_cases hwidth : width = 32
  · have hreach : regOfAccess r.offset width = some r := regOfAccess_eq_some.mpr ⟨hwidth, rfl⟩
    rw [hostWrite_of_some hreach (RegName.ne_cmd_of_ro hr), regWrite_of_ro hr]
  · exact hostWrite_of_none (regOfAccess_of_malformed (.inl hwidth)) v s

/-! ### NOP -/

theorem decode_nop : decode 0x00000000#32 = .ok .nop :=
  decode_of_mem (r := opRows[0]) (List.getElem_mem _) (by decide)

theorem exec_nop_of_no_fault {s : State} (hf : s.fault.set = false) : exec .nop s = .next (accept s) := by
  simp [exec, execNop, hf]

/-! ### The obligations -/

/-- Settles O18: a malformed access reaches no register, and a read-only register refuses the write that reaches it. -/
theorem badAccessIsBusError : Obligations.BadAccessIsBusError := by
  intro nm off width v s
  refine ⟨fun (h : MalformedAccess off width) => ⟨?read, ?write⟩, ?readOnly⟩
  case read => exact congrArg Host.Outcome.next (regRead_of_none (regOfAccess_of_malformed h) s)
  case write => exact hostWrite_of_none (regOfAccess_of_malformed h) v s
  case readOnly =>
    rintro r hr rfl
    exact hostWrite_of_ro hr width v s

/-- Settles O5: NOP by whether the fault latch is set; what it does to CMDSTAT is all that `refuse` and `accept` do. -/
theorem nopClearsCmdStat : Obligations.NopClearsCmdStat :=
  ⟨decode_nop, fun _ => ⟨fun hf => exec_of_fault hf nofun, exec_nop_of_no_fault⟩⟩

end Sys2Proof.Machine

/-! PROOFS. The fault state (60_exceptions.md R205): each agent's step from a set latch, and what such a step may change. -/

namespace Sys2Proof.Machine

/-! ### The steps the fault state ignores -/

theorem sampleStep_of_fault {s : State} (hf : s.fault.set = true) (nm : Numerics) (n : Index) (x : Cplx) :
    sampleStep nm n x s = s := if_pos hf

theorem rawStep_of_fault {s : State} (hf : s.fault.set = true) (nm : Numerics) (n : Index) (b : BitVec 64) :
    rawStep nm n b s = s := if_pos hf

theorem acqFinish_of_fault {s : State} (hf : s.fault.set = true) (nm : Numerics) : acqFinish nm s = s := by
  have hdisabled : acqFinishEnabled s = false := by simp [acqFinishEnabled, hf]
  simp [acqFinish, hdisabled]

/-! ### Writes that reach CMD or a read-write register -/

/-- A write that reaches CMD is the command itself (30_encoding.md R80). -/
theorem hostWrite_of_cmd {off width : Nat} (h : regOfAccess off width = some .cmd) (v : Word) (s : State) :
    hostWrite off width v s = execWord v { s with hostResp := .done } := by
  simp only [hostWrite, h]

theorem regWrite_of_rw {r : RegName} (hr : r.access = .rw) (v : Word) (s : State) :
    regWrite r v s = { s with regs := s.regs.store r v, hostResp := .done } := if_pos hr

theorem RegName.ne_cmd_of_rw {r : RegName} (hr : r.access = .rw) : r ≠ .cmd := by
  rintro rfl
  cases hr

theorem hostWrite_of_rw {r : RegName} (hr : r.access = .rw) (v : Word) (s : State) :
    hostWrite r.offset 32 v s = .next { s with regs := s.regs.store r v, hostResp := .done } := by
  rw [hostWrite_of_some (regOfAccess_eq_some.mpr ⟨rfl, rfl⟩) (RegName.ne_cmd_of_rw hr), regWrite_of_rw hr]

/-! ### What a step may change in the fault state -/

/-- What register accesses and refused commands may change, the schedule included, and CMDSTAT only to FAULTED. -/
def FaultFrame (s t : State) : Prop :=
  t = { s with
    regs := t.regs, cmdStat := t.cmdStat, sidxHiLatch := t.sidxHiLatch, hostResp := t.hostResp, inputs := t.inputs } ∧
  (t.cmdStat = s.cmdStat ∨ t.cmdStat = .faulted)

theorem FaultFrame.refl (s : State) : FaultFrame s s := ⟨rfl, .inl rfl⟩

/-- Taking the schedule's head off first is within the frame. -/
theorem FaultFrame.of_popInput {s t : State} {rest : List Input} (h : FaultFrame (s.popInput rest) t) :
    FaultFrame s t := h

theorem busError_faultFrame (s : State) : FaultFrame s (busError s) := ⟨rfl, .inl rfl⟩

theorem regRead_faultFrame (off width : Nat) (s : State) : FaultFrame s (regRead off width s) := by
  rw [regRead_frame]
  exact ⟨rfl, .inl rfl⟩

theorem regWrite_faultFrame (r : RegName) (v : Word) (s : State) : FaultFrame s (regWrite r v s) := by
  rw [regWrite_frame]
  exact ⟨rfl, .inl rfl⟩

/-- A host write in the fault state, by the register it reaches: none, CMD, or another. -/
theorem hostWrite_faultFrame {s : State} (hf : s.fault.set = true) {off width : Nat} {v : Word}
    (hne : ¬ (off = 0x04 ∧ width = 32 ∧ v = 0x7F000000#32)) :
    ∃ t, hostWrite off width v s = .next t ∧ FaultFrame s t := by
  cases hreach : regOfAccess off width with
  | none => exact ⟨_, hostWrite_of_none hreach v s, busError_faultFrame s⟩
  | some r =>
    by_cases hcmd : r = .cmd
    · subst hcmd
      obtain ⟨hwidth, hoff⟩ := regOfAccess_eq_some.mp hreach
      have hword : v ≠ 0x7F000000#32 := fun hv => hne ⟨hoff.symm, hwidth, hv⟩
      exact ⟨_, (hostWrite_of_cmd hreach v s).trans (execWord_of_fault hf hword), rfl, .inr rfl⟩
    · exact ⟨_, hostWrite_of_some hreach hcmd v s, regWrite_faultFrame r v s⟩

/-- Every agent's step in the fault state, but the write of the SRESET word to CMD. -/
theorem agentStep_faultFrame {s : State} (hf : s.fault.set = true) (nm : Numerics) {inp : Input}
    (hne : inp ≠ .write 0x04 32 0x7F000000#32) : ∃ t, agentStep nm inp s = .next t ∧ FaultFrame s t := by
  cases inp with
  | read off width => exact ⟨_, rfl, regRead_faultFrame off width s⟩
  | write off width v =>
    refine hostWrite_faultFrame hf ?_
    rintro ⟨rfl, rfl, rfl⟩
    exact hne rfl
  | sample n x => exact ⟨s, congrArg Host.Outcome.next (sampleStep_of_fault hf nm n x), .refl s⟩
  | raw n b => exact ⟨s, congrArg Host.Outcome.next (rawStep_of_fault hf nm n b), .refl s⟩
  | acqFinish => exact ⟨s, congrArg Host.Outcome.next (acqFinish_of_fault hf nm), .refl s⟩

/-- A step from the fault state, whose schedule is empty or names an agent, does not leave the frame. -/
theorem step_faultFrame {s : State} (hf : s.fault.set = true)
    (hne : ∀ rest, s.inputs ≠ .write 0x04 32 0x7F000000#32 :: rest) : ∃ t, step s = .next t ∧ FaultFrame s t := by
  unfold step scheduledStep
  split
  · exact ⟨s, congrArg Host.Outcome.next (acqFinish_of_fault hf Config.num), .refl s⟩
  · next inp rest hinputs =>
    have hinp : inp ≠ .write 0x04 32 0x7F000000#32 := fun h => hne rest (h ▸ hinputs)
    obtain ⟨t, hstep, hframe⟩ := agentStep_faultFrame (s := s.popInput rest) hf Config.num hinp
    exact ⟨t, hstep, hframe.of_popInput⟩

/-! ### The obligation -/

/-- Settles O59: the frame agent by agent, the ignored steps, the refused words, and register accesses, which do not look
at the latch. -/
theorem faultStateIsFrozen : Obligations.FaultStateIsFrozen := by
  intro s hf hne
  refine ⟨step_faultFrame hf hne, fun nm n x b => ?ignored, fun _ => execWord_of_fault hf, fun nm r v => ⟨?read, ?write⟩⟩
  case ignored => exact ⟨sampleStep_of_fault hf nm n x, rawStep_of_fault hf nm n b, acqFinish_of_fault hf nm⟩
  case read => exact congrArg Host.Outcome.next (regRead_offset r s)
  case write => exact fun hr => hostWrite_of_rw hr v s

end Sys2Proof.Machine

/-! PROOFS. The encoder is the inverse of the decoder (30_encoding.md R81, R83), and the words of vector V31. -/

namespace Sys2Proof

/-! ### Encoding row by row -/

/-- What a row builds encodes to the row's pattern, with the word's bits where the row compares none. -/
theorem encode_build (w : Word) : ∀ r ∈ opRows, encode (r.build w) = r.pattern ||| (w &&& ~~~r.mask) := by
  simp only [opRows, List.forall_mem_cons, encode, chField, coldField, svField]
  refine ⟨?nop, ?wcap, ?acq, ?acqabort, ?tseed, ?tstop, ?sreset, by simp⟩
  case nop | wcap | acqabort | sreset => simp
  all_goals
    apply BitVec.eq_of_getLsbD_eq
    intro i hi
    simp only [BitVec.getLsbD_append]
    interval_cases i <;> simp

/-- A row's pattern has no bit that the row does not compare. -/
theorem opRows_pattern_mask : ∀ r ∈ opRows, r.pattern &&& r.mask = r.pattern := by decide

/-! ### The operand fields of an encoded command -/

theorem coldField_encode_acq (cold : Bool) (sv : BitVec 6) : coldField (encode (.acq cold sv)) = cold := by
  simp only [coldField, encode, BitVec.getLsbD_append]
  simp

theorem svField_encode_acq (cold : Bool) (sv : BitVec 6) : svField (encode (.acq cold sv)) = sv :=
  BitVec.extractLsb'_append_eq_right

theorem chField_encode_tseed (ch : BitVec 4) (sv : BitVec 6) : chField (encode (.tseed ch sv)) = ch := by
  unfold chField encode
  simp (disch := omega) only [BitVec.extractLsb'_append_eq_of_le, BitVec.extractLsb'_append_eq_of_add_le]
  simp

theorem svField_encode_tseed (ch : BitVec 4) (sv : BitVec 6) : svField (encode (.tseed ch sv)) = sv :=
  BitVec.extractLsb'_append_eq_right

theorem chField_encode_tstop (ch : BitVec 4) : chField (encode (.tstop ch)) = ch := by
  unfold chField encode
  simp (disch := omega) only [BitVec.extractLsb'_append_eq_of_le, BitVec.extractLsb'_append_eq_of_add_le]
  simp

/-- Every command is what one row builds from the command's own word. -/
theorem exists_row_build_encode (i : Instr) : ∃ r ∈ opRows, r.build (encode i) = i := by
  cases i with
  | nop => exact ⟨opRows[0], List.getElem_mem _, rfl⟩
  | wcap => exact ⟨opRows[1], List.getElem_mem _, rfl⟩
  | acq cold sv =>
    refine ⟨opRows[2], List.getElem_mem _, ?_⟩
    exact congrArg₂ Instr.acq (coldField_encode_acq cold sv) (svField_encode_acq cold sv)
  | acqabort => exact ⟨opRows[3], List.getElem_mem _, rfl⟩
  | tseed ch sv =>
    refine ⟨opRows[4], List.getElem_mem _, ?_⟩
    exact congrArg₂ Instr.tseed (chField_encode_tseed ch sv) (svField_encode_tseed ch sv)
  | tstop ch => exact ⟨opRows[5], List.getElem_mem _, congrArg Instr.tstop (chField_encode_tstop ch)⟩
  | sreset => exact ⟨opRows[6], List.getElem_mem _, rfl⟩

/-! ### The two directions -/

theorem decode_encode (i : Instr) : decode (encode i) = .ok i := by
  obtain ⟨r, hr, hbuild⟩ := exists_row_build_encode i
  have hword : encode i = r.pattern ||| (encode i &&& ~~~r.mask) := by
    rw [← encode_build (encode i) r hr, hbuild]
  have hrow : encode i &&& r.mask = r.pattern := by
    rw [hword, BitVec.and_or_distrib_right, opRows_pattern_mask r hr, BitVec.and_assoc, BitVec.and_comm (~~~r.mask)]
    simp
  exact decode_eq_ok_iff.mpr ⟨r, hr, hrow, hbuild⟩

theorem encode_of_decode {w : Word} {i : Instr} (h : decode w = .ok i) : encode i = w := by
  obtain ⟨r, hr, hrow, rfl⟩ := decode_eq_ok_iff.mp h
  calc encode (r.build w)
    _ = (w &&& r.mask) ||| (w &&& ~~~r.mask) := by rw [encode_build w r hr, hrow]
    _ = w := by rw [← BitVec.and_or_distrib_left, BitVec.or_not_self, BitVec.and_allOnes]

/-! ### The obligations -/

/-- Settles O1: a row's own bits are its pattern, the others are the operand fields it reads. -/
theorem decodeEncodeAgree : Obligations.DecodeEncodeAgree :=
  ⟨decode_encode, fun _ _ => encode_of_decode⟩

/-- Settles O2: each written word selects one row. -/
theorem writtenCommandWordsDecode : Obligations.WrittenCommandWordsDecode := by
  unfold Obligations.WrittenCommandWordsDecode
  decide

end Sys2Proof

/-! PROOFS. The step of the agent the schedule names (00_scope.md R7, R8; 30_encoding.md R80). -/

namespace Sys2Proof.Machine

/-! ### The bytes of a command word -/

/-- A word laid out in bytes and read back is the word (20_memory.md R61). -/
theorem wordOfBytes_byteLane (w : Word) :
    wordOfBytes (byteLane w 0) (byteLane w 1) (byteLane w 2) (byteLane w 3) = w := by
  apply BitVec.eq_of_getLsbD_eq
  intro i hi
  simp only [wordOfBytes, byteLane, BitVec.getLsbD_append, BitVec.getLsbD_extractLsb']
  interval_cases i <;> simp

theorem decodeBytes_bytesOfWord (w : Word) : decodeBytes (bytesOfWord w) = decode w :=
  congrArg decode (wordOfBytes_byteLane w)

theorem decode_of_decodeTableWord {w : Nat} {i : Instr} (h : decodeTableWord 32 w = some i) :
    decode (BitVec.ofNat 32 (w % 2 ^ 32)) = .ok i := by
  unfold decodeTableWord at h
  rw [decodeBytes_bytesOfWord] at h
  split at h
  · next hd => rw [hd, Option.some.inj h]
  · cases h

/-! ### One step -/

theorem step_of_nil {s : State} (h : s.inputs = []) : step s = .next (acqFinish Config.num s) := by
  unfold step scheduledStep
  rw [h]

theorem step_of_cons {s : State} {a : Input} {rest : List Input} (h : s.inputs = a :: rest) :
    step s = agentStep Config.num a (s.popInput rest) := by
  unfold step scheduledStep
  rw [h]

/-- The write of a word to CMD executes the word. -/
theorem agentStep_cmd (nm : Numerics) (w : Word) (s : State) :
    agentStep nm (.write 0x04 32 w) s = execWord w { s with hostResp := .done } :=
  hostWrite_of_cmd (regOfAccess_eq_some.mpr ⟨rfl, rfl⟩) w s

theorem agentStep_write_of_ne_cmd (nm : Numerics) {r : RegName} (hr : r ≠ .cmd) (v : Word) (s : State) :
    agentStep nm (.write r.offset 32 v) s = .next (regWrite r v s) :=
  hostWrite_of_some (regOfAccess_eq_some.mpr ⟨rfl, rfl⟩) hr v s

/-- A write whose width and offset are those of no register is a bus error. -/
theorem agentStep_write_of_unmapped (nm : Numerics) {off width : Nat}
    (h : ∀ r : RegName, ¬(width = 32 ∧ off = r.offset)) (v : Word) (s : State) : agentStep nm (.write off width v) s = .next (busError s) := by
  refine hostWrite_of_none (Option.eq_none_iff_forall_ne_some.mpr fun r hr => ?_) v s
  obtain ⟨hwidth, hoff⟩ := regOfAccess_eq_some.mp hr
  exact h r ⟨hwidth, hoff.symm⟩

/-- A command word issued by the host runs the command it decodes to. -/
theorem step_of_cmd {s : State} {w : Word} {rest : List Input} (h : s.inputs = .write 0x04 32 w :: rest) :
    step s = execWord w { s with inputs := rest, hostResp := .done } :=
  (step_of_cons h).trans (agentStep_cmd Config.num w _)

/-! ### What a step can do -/

/-- The states a step can lead to, from the state with the schedule's head taken off: a register access or nothing, a
command, a sample, a raw sample that does not decode, the engine's turn. -/
inductive StepEffect (s : State) : State → Prop where
  | access (regs : Regs) (latch : Word) (resp : HostResp) :
      StepEffect s { s with regs := regs, sidxHiLatch := latch, hostResp := resp }
  | command {t : State} : CommandEffect { s with hostResp := .done } t → StepEffect s t
  | sample (n : Index) (x : Cplx) : StepEffect s (sampleStep Config.num n x s)
  | badSample (k : FatalKind) (n : Index) : StepEffect s (sourceFault k n s)
  | engine : StepEffect s (acqFinish Config.num s)

theorem hostWrite_effect {off width : Nat} {v : Word} {s t : State} (h : hostWrite off width v s = .next t) :
    StepEffect s t := by
  cases hreach : regOfAccess off width with
  | none =>
    cases (hostWrite_of_none hreach v s).symm.trans h
    exact .access s.regs s.sidxHiLatch .busError
  | some r =>
    by_cases hcmd : r = .cmd
    · subst hcmd
      obtain ⟨t', hexec, heffect⟩ := execWord_effect v { s with hostResp := .done }
      cases ((hostWrite_of_cmd hreach v s).trans hexec).symm.trans h
      exact .command heffect
    · cases (hostWrite_of_some hreach hcmd v s).symm.trans h
      rw [regWrite_frame]
      exact .access _ s.sidxHiLatch _

theorem rawStep_effect (n : Index) (b : BitVec 64) (s : State) : StepEffect s (rawStep Config.num n b s) := by
  unfold rawStep
  split
  · exact .access s.regs s.sidxHiLatch s.hostResp
  · split
    · exact .sample n _
    · exact .badSample _ n

theorem agentStep_effect {a : Input} {s t : State} (h : agentStep Config.num a s = .next t) : StepEffect s t := by
  cases a with
  | read off width =>
    cases h
    rw [regRead_frame]
    exact .access s.regs _ _
  | write off width v => exact hostWrite_effect h
  | sample n x => cases h; exact .sample n x
  | raw n b => cases h; exact rawStep_effect n b s
  | acqFinish => cases h; exact .engine

theorem step_effect {s t : State} (h : step s = .next t) : ∃ rest, StepEffect (s.popInput rest) t := by
  cases hinputs : s.inputs with
  | nil =>
    cases (step_of_nil hinputs).symm.trans h
    have hpop : s.popInput [] = s := by rw [← hinputs]; rfl
    refine ⟨[], ?_⟩
    rw [hpop]
    exact .engine
  | cons a rest => exact ⟨rest, agentStep_effect ((step_of_cons hinputs).symm.trans h)⟩

/-! ### The obligation -/

/-- Settles O4: the schedule's head names the agent, and a write is told apart by the register it reaches. -/
theorem stepRunsDecodedCommand : Obligations.StepRunsDecodedCommand := by
  refine ⟨fun s w rest i hin hd => ?_, fun s w i _ hd => ?_, fun s hin => step_of_nil hin, fun s a rest hin => ?_⟩
  · rw [step_of_cmd hin, execWord_of_decode_ok hd]
  · have hin : (s.withFetchWord 32 w).inputs = .write 0x04 32 (BitVec.ofNat 32 (w % 2 ^ 32)) :: s.inputs := rfl
    rw [step_of_cmd hin, execWord_of_decode_ok (decode_of_decodeTableWord hd)]
    rfl
  · refine ⟨?cmd, ?register, ?unmapped, ?read, ?sample, ?raw, ?engine⟩
    case cmd => rintro w rfl; exact step_of_cmd hin
    case register => rintro r v rfl hr; exact (step_of_cons hin).trans (agentStep_write_of_ne_cmd _ hr v _)
    case unmapped => rintro off width v rfl h; exact (step_of_cons hin).trans (agentStep_write_of_unmapped _ h v _)
    case read => rintro off width rfl; exact step_of_cons hin
    case sample => rintro n x rfl; exact step_of_cons hin
    case raw => rintro n b rfl; exact step_of_cons hin
    case engine => rintro rfl; exact step_of_cons hin

end Sys2Proof.Machine

/-! PROOFS. The configuration check (43_host.md R184), the commands that start work (41_acquire.md R110, R112,
42_track.md R140) with the fault they raise (60_exceptions.md R204), and SRESET (43_host.md R186). -/

namespace Sys2Proof.Machine

/-! ### The configuration check -/

theorem fitsDepth_iff {depth : Option Nat} {samples : Nat} :
    fitsDepth depth samples = true ↔ ∀ d, depth = some d → samples ≤ d := by
  cases depth <;> simp [fitsDepth]

theorem cfgOkWith_iff {depth : Option Nat} {r : Regs} :
    cfgOkWith depth r = true ↔
      2046000 ≤ r.sampleRate.toNat ∧ r.sampleRate.toNat % 1000 = 0 ∧ r.sampleFmt.toNat ≤ 2 ∧ 1 ≤ r.acqDoppStep.toNat ∧
      (r.acqDoppRange.toNat ≤ 0x7FFFFFFF ∧ r.acqDoppRangeCold.toNat ≤ 0x7FFFFFFF) ∧
      (1 ≤ r.acqK.toNat ∧ r.acqK.toNat ≤ 10000) ∧ (1 ≤ r.maxTracked.toNat ∧ r.maxTracked.toNat ≤ 10) ∧
      ∀ d, depth = some d → r.acqK.toNat * (r.sampleRate.toNat / 1000) ≤ d := by
  simp only [cfgOkWith, Bool.and_eq_true, decide_eq_true_eq, fitsDepth_iff, and_assoc]

/-! ### Legal operands -/

theorem svLegal_eq_true_iff {sv : BitVec 6} : svLegal sv = true ↔ 1 ≤ sv.toNat ∧ sv.toNat ≤ 32 := by
  simp [svLegal]

/-- A channel operand in range names a channel. -/
theorem exists_chanOf {ch : BitVec 4} (h : ch.toNat ≤ 9) : ∃ c : Chan, c.val = ch.toNat :=
  ⟨⟨ch.toNat, Nat.lt_succ_of_le h⟩, rfl⟩

/-! ### Faults -/

theorem FaultLatch.raise_of_clear {f : FaultLatch} (hf : f.set = false) (code : BitVec 4) :
    f.raise code = { set := true, code := code } := by
  simp [FaultLatch.raise, hf]

theorem FaultLatch.raise_of_set {f : FaultLatch} (hf : f.set = true) (code : BitVec 4) : f.raise code = f := if_pos hf

@[simp] theorem FaultLatch.raise_set (f : FaultLatch) (code : BitVec 4) : (f.raise code).set = true := by
  cases hf : f.set
  · rw [raise_of_clear hf]
  · rw [raise_of_set hf, hf]

/-- A fault raised by an agent that is no command, on a clear latch. -/
theorem raiseFault_of_clear {s : State} (hf : s.fault.set = false) (k : FatalKind) (sv : BitVec 6) (g : Stage)
    (t : Index) :
    raiseFault k sv g t s =
      { s with fault := { set := true, code := k.code }, events := s.events ++ [faultEvent k sv g t] } := by
  simp [raiseFault, FaultLatch.raise_of_clear hf]

/-- A fault raised by a command, on a clear latch. -/
theorem raiseFaultCmd_of_clear {s : State} (hf : s.fault.set = false) (k : FatalKind) (sv : BitVec 6) (g : Stage) :
    raiseFaultCmd k sv g s =
      { s with
        fault := { set := true, code := k.code }, cmdStat := .faulted
        events := s.events ++ [faultEvent k sv g s.sidx] } := by
  rw [raiseFaultCmd, raiseFault_of_clear hf]
  rfl

/-! ### WCAP -/

section
variable {s : State} (hf : s.fault.set = false)
include hf

theorem exec_wcap_of_badConfig (hcfg : cfgOk s.regs = false) :
    exec .wcap s = .next (raiseFaultCmd .configInvalid 0#6 .acquirer s) := by
  simp [exec, execWcap, hf, hcfg]

theorem exec_wcap_of_busy (hcfg : cfgOk s.regs = true) (hb : s.acq.busy = true ∨ s.win.capturing = true) :
    exec .wcap s = .next (refuse .busy s) := by
  simp [exec, execWcap, hf, hcfg, hb]

theorem exec_wcap_of_free (hcfg : cfgOk s.regs = true) (hb : s.acq.busy = false) (hc : s.win.capturing = false) :
    exec .wcap s = .next (accept { s with win := s.win.startCapture s.regs }) := by
  simp [exec, execWcap, hf, hcfg, hb, hc]

/-! ### ACQ -/

variable {cold : Bool} {sv : BitVec 6} (hsv : svLegal sv = true)
include hsv

theorem exec_acq_of_badConfig (hcfg : cfgOk s.regs = false) :
    exec (.acq cold sv) s = .next (raiseFaultCmd .configInvalid sv .acquirer s) := by
  simp [exec, execAcq, hf, hsv, hcfg]

theorem exec_acq_of_busy (hcfg : cfgOk s.regs = true) (hb : s.acq.busy = true) :
    exec (.acq cold sv) s = .next (refuse .busy s) := by
  simp [exec, execAcq, hf, hsv, hcfg, hb]

theorem exec_acq_of_noWindow (hcfg : cfgOk s.regs = true) (hb : s.acq.busy = false) (hv : s.win.valid = false) :
    exec (.acq cold sv) s = .next (refuse .noWindow s) := by
  simp [exec, execAcq, hf, hsv, hcfg, hb, hv]

theorem exec_acq_of_window (hcfg : cfgOk s.regs = true) (hb : s.acq.busy = false) (hv : s.win.valid = true) :
    exec (.acq cold sv) s = .next (accept { s with acq := s.acq.startSearch s.regs cold sv }) := by
  simp [exec, execAcq, hf, hsv, hcfg, hb, hv]

/-! ### TSEED -/

variable {ch : BitVec 4} {c : Chan} (hc : c.val = ch.toNat)
include hc

theorem exec_tseed_of_badConfig (hcfg : cfgOk s.regs = false) :
    exec (.tseed ch sv) s = .next (raiseFaultCmd .configInvalid sv .tracker s) := by
  simp [exec, execTseed, hf, chanOf_eq_some hc, hsv, hcfg]

theorem exec_tseed_of_config (hcfg : cfgOk s.regs = true) :
    exec (.tseed ch sv) s = .next (seedChecked Config.num c sv s) := by
  simp [exec, execTseed, hf, chanOf_eq_some hc, hsv, hcfg]

end

theorem svTrackedElsewhere_eq_true_iff {s : State} {c : Chan} {sv : BitVec 6} :
    svTrackedElsewhere s c sv = true ↔ ∃ d : Chan, d ≠ c ∧ s.ch[d].active = true ∧ s.ch[d].sv = sv := by
  simp [svTrackedElsewhere, List.any_eq_true, and_assoc]

theorem svTrackedElsewhere_eq_false_iff {s : State} {c : Chan} {sv : BitVec 6} :
    svTrackedElsewhere s c sv = false ↔ ∀ d : Chan, d ≠ c → s.ch[d].active = true → s.ch[d].sv ≠ sv := by
  rw [← Bool.not_eq_true, svTrackedElsewhere_eq_true_iff]
  push Not
  rfl

section
variable (nm : Numerics) {s : State} {c : Chan} {sv : BitVec 6}

theorem seedChecked_of_active (ha : s.ch[c].active = true) : seedChecked nm c sv s = refuse .chBusy s := if_pos ha

variable (ha : s.ch[c].active = false)
include ha

theorem seedChecked_of_full (hslots : s.regs.maxTracked.toNat ≤ nActive s) :
    seedChecked nm c sv s = refuse .slotsFull s := by
  simp only [seedChecked, ha, hslots, Bool.false_eq_true, ↓reduceIte]

variable (hslots : nActive s < s.regs.maxTracked.toNat)
include hslots

theorem seedChecked_of_duplicate (hdup : svTrackedElsewhere s c sv = true) :
    seedChecked nm c sv s = refuse .dupSv s := by
  simp only [seedChecked, ha, Nat.not_le.mpr hslots, hdup, Bool.false_eq_true, ↓reduceIte]

variable (hdup : svTrackedElsewhere s c sv = false)
include hdup

theorem seedChecked_of_badSeed (hseed : samplesPerBlock s.regs ≤ s.regs.seedCphase.toNat) :
    seedChecked nm c sv s = refuse .badSeed s := by
  simp only [seedChecked, ha, Nat.not_le.mpr hslots, hdup, hseed, Bool.false_eq_true, ↓reduceIte]

theorem seedChecked_of_free (hseed : s.regs.seedCphase.toNat < samplesPerBlock s.regs) :
    seedChecked nm c sv s = accept (s.setChan c (seedChannel nm s.regs sv)) := by
  simp only [seedChecked, ha, Nat.not_le.mpr hslots, hdup, Nat.not_le.mpr hseed, Bool.false_eq_true, ↓reduceIte]

end

/-- TSEED's checks end with CMDSTAT 0 only where the channel was free and a slot was left; then it is seeded. -/
theorem seedChecked_ok {nm : Numerics} {c : Chan} {sv : BitVec 6} {s : State}
    (h : (seedChecked nm c sv s).cmdStat = .ok) :
    s.ch[c].active = false ∧ nActive s < s.regs.maxTracked.toNat ∧
      seedChecked nm c sv s = accept (s.setChan c (seedChannel nm s.regs sv)) := by
  cases ha : s.ch[c].active with
  | true => rw [seedChecked_of_active nm ha] at h; cases h
  | false =>
    rcases Nat.lt_or_ge (nActive s) s.regs.maxTracked.toNat with hslots | hslots
    · refine ⟨rfl, hslots, ?_⟩
      cases hdup : svTrackedElsewhere s c sv with
      | true => rw [seedChecked_of_duplicate nm ha hslots hdup] at h; cases h
      | false =>
        rcases Nat.lt_or_ge s.regs.seedCphase.toNat (samplesPerBlock s.regs) with hseed | hseed
        · exact seedChecked_of_free nm ha hslots hdup hseed
        · rw [seedChecked_of_badSeed nm ha hslots hdup hseed] at h; cases h
    · rw [seedChecked_of_full nm ha hslots] at h; cases h

/-- A TSEED that ends with CMDSTAT 0 has found a free channel and a free slot, and seeds the channel. -/
theorem exec_tseed_ok {ch : BitVec 4} {sv : BitVec 6} {s t : State} (h : exec (.tseed ch sv) s = .next t)
    (hok : t.cmdStat = .ok) :
    ∃ c : Chan, s.ch[c].active = false ∧ nActive s < s.regs.maxTracked.toNat ∧
      t = accept (s.setChan c (seedChannel Config.num s.regs sv)) := by
  cases hf : s.fault.set with
  | true =>
    cases (exec_of_fault hf (i := .tseed ch sv) nofun).symm.trans h
    cases hok
  | false =>
    cases hwf : (Instr.tseed ch sv).wellFormed with
    | false =>
      cases (exec_of_not_wellFormed hf hwf).symm.trans h
      cases hok
    | true =>
      obtain ⟨hch, hsv⟩ := Bool.and_eq_true_iff.mp hwf
      obtain ⟨c, hc⟩ := exists_chanOf (ch := ch) (of_decide_eq_true hch)
      cases hcfg : cfgOk s.regs with
      | false =>
        cases (exec_tseed_of_badConfig hf hsv hc hcfg).symm.trans h
        cases hok
      | true =>
        cases (exec_tseed_of_config hf hsv hc hcfg).symm.trans h
        exact ⟨c, seedChecked_ok hok⟩

/-- Activating a channel that was not active raises the count of active channels by one. -/
theorem nActive_setChan_of_activated {s : State} {c : Chan} {C : Channel} (ha : s.ch[c].active = false)
    (hC : C.active = true) : nActive (s.setChan c C) = nActive s + 1 := by
  have hold : s.ch[c.val].active = false := ha
  simp [nActive, State.setChan, Vector.toList_set, List.countP_set, hold, hC]

/-! ### SRESET -/

theorem decode_sreset : decode 0x7F000000#32 = .ok .sreset :=
  decode_of_mem (r := opRows[6]) (List.getElem_mem _) (by decide)

/-- A word with SRESET's OP that is not its word is no command. -/
theorem illegalWord_of_sreset_op {w : Word} (hop : opField w = 0x7F#8) (hw : w ≠ 0x7F000000#32) : IllegalWord w := by
  have hrows : ∀ r ∈ opRows, opField r.pattern = 0x7F#8 → r.mask = BitVec.allOnes 32 ∧ r.pattern = 0x7F000000#32 := by
    decide
  refine .inl fun r hr hrow => hw ?_
  obtain ⟨hmask, hpattern⟩ := hrows r hr ((opField_of_selects hr hrow).symm.trans hop)
  rwa [hmask, hpattern, BitVec.and_allOnes] at hrow

theorem softReset_atReset (s : State) : AtReset (softReset s) where
  regs := rfl
  sidx := ⟨rfl, rfl, rfl⟩
  win := ⟨rfl, rfl, rfl, rfl, rfl, rfl, rfl⟩
  acq := rfl
  channels := softReset_chan s
  fault := rfl
  cmdStat := rfl

/-! ### The obligations -/

/-- Settles O13: the check is the conjunction term by term. -/
theorem cfgOkIsEightConditions : Obligations.CfgOkIsEightConditions :=
  ⟨fun _ => rfl, fun _ _ => cfgOkWith_iff⟩

/-- Settles O12: the three commands with legal operands, on a clear latch. -/
theorem configInvalidFaultsTheCommand : Obligations.ConfigInvalidFaultsTheCommand := by
  intro s hf hcfg
  have hraise := raiseFaultCmd_of_clear hf .configInvalid
  refine ⟨?wcap, fun cold sv hlow hhigh => ?acq, fun ch sv hch hlow hhigh => ?tseed⟩
  case wcap => rw [exec_wcap_of_badConfig hf hcfg, hraise]; rfl
  case acq => rw [exec_acq_of_badConfig hf (svLegal_eq_true_iff.mpr ⟨hlow, hhigh⟩) hcfg, hraise]; rfl
  case tseed =>
    obtain ⟨c, hc⟩ := exists_chanOf hch
    rw [exec_tseed_of_badConfig hf (svLegal_eq_true_iff.mpr ⟨hlow, hhigh⟩) hc hcfg, hraise]; rfl

/-- Settles O6: WCAP's checks in their order. -/
theorem wcapStartsCapture : Obligations.WcapStartsCapture :=
  fun _ => ⟨fun hf => exec_of_fault hf nofun, exec_wcap_of_busy, exec_wcap_of_free⟩

/-- Settles O7: ACQ's checks in their order. -/
theorem acqStartsSearch : Obligations.AcqStartsSearch := by
  intro cold sv s
  refine ⟨fun hf => exec_of_fault hf nofun,
    fun hf hsv => exec_of_not_wellFormed hf (svLegal_eq_false_iff.mpr hsv), fun hf hlow hhigh hcfg => ?_⟩
  have hsv := svLegal_eq_true_iff.mpr ⟨hlow, hhigh⟩
  exact ⟨exec_acq_of_busy hf hsv hcfg, exec_acq_of_noWindow hf hsv hcfg, exec_acq_of_window hf hsv hcfg⟩

/-- Settles O9: TSEED's checks in their order; the record it writes is `seedChannel`. -/
theorem tseedSeedsChannel : Obligations.TseedSeedsChannel := by
  intro ch sv s
  refine ⟨fun hf => exec_of_fault hf nofun, fun hf hill => exec_of_not_wellFormed hf ?_,
    fun c hc hf hlow hhigh hcfg => ?_⟩
  · exact Bool.and_eq_false_iff.mpr (hill.imp chLegal_eq_false_iff.mpr svLegal_eq_false_iff.mpr)
  · rw [exec_tseed_of_config hf (svLegal_eq_true_iff.mpr ⟨hlow, hhigh⟩) hc hcfg]
    refine ⟨fun ha => ?chBusy, fun ha hfull => ?slotsFull, fun ha hslots hdup => ?dupSv,
      fun ha hslots hdup hseed => ?badSeed, fun ha hslots hdup hseed => ?ok⟩
    case chBusy => rw [seedChecked_of_active _ ha]; rfl
    case slotsFull => rw [seedChecked_of_full _ ha hfull]; rfl
    case dupSv => rw [seedChecked_of_duplicate _ ha hslots (svTrackedElsewhere_eq_true_iff.mpr hdup)]; rfl
    case badSeed => rw [seedChecked_of_badSeed _ ha hslots (svTrackedElsewhere_eq_false_iff.mpr hdup) hseed]; rfl
    case ok => rw [seedChecked_of_free _ ha hslots (svTrackedElsewhere_eq_false_iff.mpr hdup) hseed]; rfl

/-- Settles O14: a TSEED that completes activates one channel, with a slot left before it. -/
theorem tseedKeepsSlotLimit : Obligations.TseedKeepsSlotLimit := by
  intro ch sv s t h hok
  obtain ⟨c, ha, hslots, rfl⟩ := exec_tseed_ok h hok
  have hcount : nActive (accept (s.setChan c (seedChannel Config.num s.regs sv))) = nActive s + 1 :=
    nActive_setChan_of_activated ha rfl
  omega

/-- Settles O11: SRESET's word is one of a kind, and the command writes the reset column. -/
theorem sresetRestoresReset : Obligations.SresetRestoresReset := by
  refine ⟨decode_sreset, fun w s hop hw => ?_, fun s =>
    ⟨softReset s, rfl, softReset_atReset s, rfl, rfl, rfl, rfl, rfl, rfl⟩⟩
  cases hf : s.fault.set with
  | true => exact execWord_of_fault hf hw
  | false => exact execWord_of_illegal (illegalWord_of_sreset_op hop hw) hf

end Sys2Proof.Machine

/-! PROOFS. What every step keeps: the fault latch and the reserved register bits (10_state.md R23, R35), the traces
(R34), the SIDX_HI latch between host reads (20_memory.md R66), the window memory and the running search (R41). -/

namespace Sys2Proof.Machine

/-! ### The fault latch and the reserved bits -/

/-- `LatchSound` reads the latch and the register file only. -/
theorem LatchSound.congr {s t : State} (h : LatchSound s) (hfault : t.fault = s.fault) (hregs : t.regs = s.regs) :
    LatchSound t := by
  obtain ⟨hclear, hcode, hfmt, hsel⟩ := h
  exact ⟨hfault ▸ hclear, hfault ▸ hcode, hregs ▸ hfmt, hregs ▸ hsel⟩

/-- The two fault codes are the legal ones, and the latch keeps its first. -/
theorem LatchSound.raise {s t : State} (h : LatchSound s) (k : FatalKind) (hfault : t.fault = s.fault.raise k.code)
    (hregs : t.regs = s.regs) : LatchSound t := by
  cases hset : s.fault.set with
  | true => exact h.congr (hfault.trans (FaultLatch.raise_of_set hset _)) hregs
  | false =>
    rw [FaultLatch.raise_of_clear hset] at hfault
    refine ⟨fun hclear => ?_, fun _ => ?_, hregs ▸ h.sampleFmt, hregs ▸ h.prnSel⟩
    · rw [hfault] at hclear; cases hclear
    · rw [hfault]; cases k <;> decide

/-- The write masks keep the reserved bits 0 (43_host.md R181). -/
theorem Regs.store_reserved {r : Regs} (hfmt : r.sampleFmt &&& 0xFFFFFFFC#32 = 0#32)
    (hsel : r.prnSel &&& 0xFFC0FC00#32 = 0#32) (name : RegName) (v : Word) :
    (r.store name v).sampleFmt &&& 0xFFFFFFFC#32 = 0#32 ∧ (r.store name v).prnSel &&& 0xFFC0FC00#32 = 0#32 := by
  have hmasked : v &&& 0x00000003#32 &&& 0xFFFFFFFC#32 = 0#32 ∧ v &&& 0x003F03FF#32 &&& 0xFFC0FC00#32 = 0#32 := by
    simp [BitVec.and_assoc]
  cases name with
  | sampleFmt => exact ⟨hmasked.1, hsel⟩
  | prnSel => exact ⟨hfmt, hmasked.2⟩
  | _ => exact ⟨hfmt, hsel⟩

theorem Regs.reset_reserved :
    Regs.reset.sampleFmt &&& 0xFFFFFFFC#32 = 0#32 ∧ Regs.reset.prnSel &&& 0xFFC0FC00#32 = 0#32 := by decide

theorem softReset_latchSound (s : State) : LatchSound (softReset s) :=
  ⟨fun _ => rfl, nofun, Regs.reset_reserved.1, Regs.reset_reserved.2⟩

theorem CommandEffect.keeps_latchSound {s t : State} (h : LatchSound s) (heffect : CommandEffect s t) :
    LatchSound t := by
  cases heffect with
  | configFault sv g => exact h.raise .configInvalid rfl rfl
  | reset => exact softReset_latchSound s
  | _ => exact h.congr rfl rfl

theorem gapStep_latchSound {s : State} (h : LatchSound s) (n : Index) : LatchSound (gapStep n s) := by
  rw [gapStep_eq]
  exact h.congr rfl rfl

/-! ### Leaving the fault state -/

/-- A step from a set latch keeps it, unless it is SRESET. -/
theorem step_fault_of_set {s t : State} (hf : s.fault.set = true) (h : step s = .next t) :
    t.fault = s.fault ∨ (t.fault.set = false ∧ ∃ rest, s.inputs = .write 0x04 32 0x7F000000#32 :: rest) := by
  by_cases hin : ∃ rest, s.inputs = .write 0x04 32 0x7F000000#32 :: rest
  · obtain ⟨rest, hrest⟩ := hin
    rw [step_of_cmd hrest, execWord_of_decode_ok decode_sreset] at h
    cases h
    exact .inr ⟨rfl, rest, hrest⟩
  · obtain ⟨t', hstep, hframe, -⟩ := step_faultFrame hf (fun rest hrest => hin ⟨rest, hrest⟩)
    cases hstep.symm.trans h
    rw [hframe]
    exact .inl rfl

/-! ### The traces -/

/-- Each trace of the first state begins the same trace of the second. -/
def TracesExtend (s t : State) : Prop := s.prompts <+: t.prompts ∧ s.reports <+: t.reports ∧ s.events <+: t.events

theorem TracesExtend.refl (s : State) : TracesExtend s s :=
  ⟨List.prefix_refl _, List.prefix_refl _, List.prefix_refl _⟩

theorem TracesExtend.trans {s t u : State} (h : TracesExtend s t) (h' : TracesExtend t u) : TracesExtend s u := by
  obtain ⟨hp, hr, he⟩ := h
  obtain ⟨hp', hr', he'⟩ := h'
  exact ⟨hp.trans hp', hr.trans hr', he.trans he'⟩

theorem CommandEffect.tracesExtend {s t : State} (h : CommandEffect s t) : TracesExtend s t := by
  obtain ⟨hprompts, hreports, -⟩ := h.frame
  refine ⟨hprompts ▸ List.prefix_refl _, hreports ▸ List.prefix_refl _, ?_⟩
  rcases h.events with hevents | ⟨sv, g, hevents⟩
  · rw [hevents]
  · rw [hevents]; exact List.prefix_append _ _

theorem unlockChannel_tracesExtend (n : Index) (s : State) (c : Chan) : TracesExtend s (unlockChannel n s c) := by
  unfold unlockChannel
  split
  · exact ⟨List.prefix_refl _, List.prefix_refl _, List.prefix_append _ _⟩
  · exact .refl s

theorem gapStep_prompts (n : Index) (s : State) : (gapStep n s).prompts = s.prompts := by rw [gapStep_eq]

theorem gapStep_reports (n : Index) (s : State) : (gapStep n s).reports = s.reports := by rw [gapStep_eq]

theorem gapStep_events (n : Index) (s : State) :
    (gapStep n s).events = (unlockAll n (s.emitEvents [overrunEvent n])).events := by rw [gapStep_eq]

theorem gapStep_tracesExtend (n : Index) (s : State) : TracesExtend s (gapStep n s) := by
  have hoverrun : TracesExtend s (s.emitEvents [overrunEvent n]) :=
    ⟨List.prefix_refl _, List.prefix_refl _, List.prefix_append _ _⟩
  have hunlock : TracesExtend s (unlockAll n (s.emitEvents [overrunEvent n])) :=
    unlockAll_keeps (fun c _ h => h.trans (unlockChannel_tracesExtend n _ c)) _ hoverrun
  obtain ⟨-, -, hevents⟩ := hunlock
  refine ⟨?_, ?_, ?_⟩
  · rw [gapStep_prompts]
  · rw [gapStep_reports]
  · rwa [gapStep_events]

theorem chanFault_tracesExtend (c : Chan) (n : Index) (o : ChanOut) (s : State) :
    TracesExtend s (chanFault c n o s) := by
  refine ⟨List.prefix_append _ _, List.prefix_refl _, ?_⟩
  rw [chanFault_events, List.append_assoc]
  exact List.prefix_append _ _

theorem step_tracesExtend {s t : State} (h : step s = .next t) : TracesExtend s t := by
  refine step_keeps (P := TracesExtend s) ?pop ?resp ?read ?write ?cmd ?src ?gap ?take ?done ?fault ?fin ?fail s t
    (.refl s) h
  case pop | resp | read | write => intros; assumption
  case cmd => exact fun _ _ h heffect => h.trans heffect.tracesExtend
  case src =>
    exact fun _ _ _ h _ => h.trans ⟨List.prefix_refl _, List.prefix_refl _, List.prefix_append _ _⟩
  case gap => exact fun _ n h _ => h.trans (gapStep_tracesExtend n _)
  case take => exact fun _ _ _ h _ => h
  case done =>
    exact fun _ _ _ _ _ _ _ _ h => h.trans ⟨List.prefix_append _ _, List.prefix_refl _, List.prefix_append _ _⟩
  case fault => exact fun _ n _ c _ _ _ h => h.trans (chanFault_tracesExtend c n _ _)
  case fin =>
    exact fun _ _ _ _ h => h.trans ⟨List.prefix_refl _, List.prefix_append _ _, List.prefix_append _ _⟩
  case fail => exact fun _ _ _ h => h.trans ⟨List.prefix_refl _, List.prefix_refl _, List.prefix_append _ _⟩

/-! ### The SIDX_HI latch -/

theorem highWord_append_lowWord (x : Index) : highWord x ++ lowWord x = x := by
  unfold highWord lowWord
  rw [BitVec.extractLsb'_append_extractLsb'_eq_extractLsb' (by rfl)]
  exact BitVec.extractLsb'_eq_self

theorem sampleStep_sidxHiLatch (nm : Numerics) (n : Index) (x : Cplx) (s : State) :
    (sampleStep nm n x s).sidxHiLatch = s.sidxHiLatch := by
  refine sampleStep_keeps (P := fun t => t.sidxHiLatch = s.sidxHiLatch) ?src ?gap ?take ?done ?fault nm n x s rfl
  case src | take | done | fault => intros; assumption
  case gap => intro t n h _; rw [gapStep_eq]; exact h

theorem rawStep_sidxHiLatch (nm : Numerics) (n : Index) (b : BitVec 64) (s : State) :
    (rawStep nm n b s).sidxHiLatch = s.sidxHiLatch := by
  unfold rawStep
  split
  · rfl
  · split
    · exact sampleStep_sidxHiLatch nm n _ s
    · rfl

theorem acqFinish_sidxHiLatch (nm : Numerics) (s : State) : (acqFinish nm s).sidxHiLatch = s.sidxHiLatch :=
  acqFinish_keeps (P := fun t => t.sidxHiLatch = s.sidxHiLatch) (fun _ _ _ _ h => h) (fun _ _ _ h => h) nm s rfl

/-! ### The window memory and the running search -/

/-- `WindowSound` reads the window memory, and of the engine whether it is busy and its operand latches. -/
theorem WindowSound.congr {s t : State} (h : WindowSound s) (hwin : t.win = s.win) (hbusy : t.acq.busy = s.acq.busy)
    (hsv : t.acq.sv = s.acq.sv) (hstep : t.acq.step = s.acq.step) (hrange : t.acq.range = s.acq.range) :
    WindowSound t := by
  obtain ⟨hwindow, hvalid, hoperands⟩ := h
  refine ⟨hwin ▸ hwindow, ?_, ?_⟩
  · rw [hbusy, hwin]; exact hvalid
  · rw [hbusy, hsv, hstep, hrange]; exact hoperands

/-- An idle engine asks nothing of the window but its own soundness. -/
theorem WindowSound.of_idle {s : State} (hwindow : s.win.Sound) (hidle : s.acq.busy = false) : WindowSound s :=
  ⟨hwindow, fun hb => absurd (hidle.symm.trans hb) (by decide), fun hb => absurd (hidle.symm.trans hb) (by decide)⟩

/-- While a capture runs no search does. -/
theorem WindowSound.idle_of_capturing {s : State} (h : WindowSound s) (hc : s.win.capturing = true) :
    s.acq.busy = false := by
  rw [← Bool.not_eq_true]
  exact fun hb => h.window.exclusive ⟨hc, h.busy_valid hb⟩

/-- A window that is neither filling nor filled is sound when its contents are canonical. -/
theorem Win.Sound.of_unused {w : Win} (hcanonical : w.data.wf = true) (hc : w.capturing = false)
    (hv : w.valid = false) : w.Sound where
  exclusive h := by simp [hc] at h
  canonical := hcanonical
  capturing_count h := by simp [hc] at h
  valid_count h := by simp [hv] at h
  written h := by simp [hc, hv] at h
  latched h := by simp [hc, hv] at h

theorem Win.reset_sound : Win.reset.Sound := .of_unused Win.reset_canonical rfl rfl

theorem Win.abandon_sound {w : Win} (h : w.Sound) : w.abandon.Sound := .of_unused h.canonical rfl rfl

/-- A capture starts empty, with the latches of a legal configuration (43_host.md R184). -/
theorem Win.startCapture_sound {w : Win} (h : w.Sound) {r : Regs} (hcfg : cfgOk r = true) :
    (w.startCapture r).Sound := by
  obtain ⟨hrate, hwhole, -, -, -, ⟨hklow, hkhigh⟩, -, -⟩ := cfgOkWith_iff.mp hcfg
  have hblock : 2046 ≤ samplesPerBlock r := by unfold samplesPerBlock; omega
  refine ⟨?exclusive, h.canonical, fun _ => ?count, ?valid, fun _ p hp => absurd hp (Nat.not_lt_zero p),
    fun _ => ⟨?rate, hblock, hklow, hkhigh⟩⟩
  case exclusive => rintro ⟨-, hv⟩; cases hv
  case count => exact Nat.mul_pos hklow (Nat.zero_lt_of_lt hblock)
  case valid => intro hv; cases hv
  case rate => show r.sampleRate.toNat = 1000 * (r.sampleRate.toNat / 1000); omega

/-- What a capture does with a sample, field by field. -/
theorem Win.capture_of_capturing {w : Win} (hc : w.capturing = true) (n : Index) (x : Cplx) :
    w.capture n x = { w with
      start := if w.count = 0 then n else w.start
      data := w.data.write w.count x
      count := w.count + 1
      capturing := !decide (w.count + 1 = w.k * w.n)
      valid := decide (w.count + 1 = w.k * w.n) || w.valid } := by
  simp only [Win.capture, hc, ↓reduceIte]
  cases hfull : decide (w.count + 1 = w.k * w.n) <;> simp

theorem Win.capture_of_not_capturing {w : Win} (hc : w.capturing = false) (n : Index) (x : Cplx) :
    w.capture n x = w := by
  simp [Win.capture, hc]

/-- A captured sample is one more written cell, and the one that fills the window ends the capture. -/
theorem Win.capture_sound {w : Win} (h : w.Sound) (n : Index) (x : Cplx) : (w.capture n x).Sound := by
  cases hc : w.capturing with
  | false => rwa [Win.capture_of_not_capturing hc]
  | true =>
    have hnotValid : w.valid = false := by
      rw [← Bool.not_eq_true]
      exact fun hv => h.exclusive ⟨hc, hv⟩
    have hcount := h.capturing_count hc
    have hcanonical := Win.capture_canonical h.canonical n x
    rw [Win.capture_of_capturing hc] at hcanonical ⊢
    refine ⟨?exclusive, hcanonical, fun hfill => ?filling, fun hfull => ?full, fun _ p hp => ?written,
      fun _ => h.latched (.inl hc)⟩
    case exclusive => simp [hnotValid]
    case filling =>
      have hne : w.count + 1 ≠ w.k * w.n := by simpa using hfill
      show w.count + 1 < w.k * w.n
      omega
    case full => simpa [hnotValid] using hfull
    case written =>
      have hp' : p < w.count + 1 := hp
      simp only [WinMem.read_write]
      split
      · rfl
      · exact h.written (.inl hc) p (by omega)

theorem softReset_windowSound (s : State) : WindowSound (softReset s) := .of_idle Win.reset_sound rfl

theorem CommandEffect.keeps_windowSound {s t : State} (h : WindowSound s) (heffect : CommandEffect s t) :
    WindowSound t := by
  cases heffect with
  | refused | configFault | nothing | seed | stop => exact h.congr rfl rfl rfl rfl rfl
  | capture _ hcfg hidle _ => exact .of_idle (Win.startCapture_sound h.window hcfg) hidle
  | search cold sv _ hsv hcfg _ hvalid =>
    obtain ⟨-, -, -, hstep, ⟨hwarm, hcold⟩, -⟩ := cfgOkWith_iff.mp hcfg
    refine ⟨h.window, fun _ => hvalid, fun _ => ⟨hsv, hstep, ?_⟩⟩
    show dopplerRange s.regs cold ≤ 0x7FFFFFFF
    cases cold
    · exact hwarm
    · exact hcold
  | cancel => exact .of_idle h.window rfl
  | abandon _ hidle _ => exact .of_idle (Win.abandon_sound h.window) hidle
  | reset => exact softReset_windowSound s

theorem gapStep_windowSound {s : State} (h : WindowSound s) (n : Index) : WindowSound (gapStep n s) := by
  rw [gapStep_eq]
  cases hc : s.win.capturing with
  | true => exact .of_idle (Win.abandon_sound h.window) (h.idle_of_capturing hc)
  | false => exact h.congr rfl rfl rfl rfl rfl

theorem takeSample_windowSound {s : State} (h : WindowSound s) (n : Index) (x : Cplx) :
    WindowSound (takeSample n x s) := by
  cases hc : s.win.capturing with
  | true => exact .of_idle (Win.capture_sound h.window n x) (h.idle_of_capturing hc)
  | false => exact h.congr (Win.capture_of_not_capturing hc n x) rfl rfl rfl rfl

/-! ### The obligations -/

/-- Settles O56: the latch keeps its first code, 2 or 4, and a write keeps the reserved bits 0. -/
theorem stepKeepsLatchSound : Obligations.StepKeepsLatchSound := by
  refine step_keeps ?pop ?resp ?read ?write ?cmd ?src ?gap ?take ?done ?fault ?fin ?fail
  case pop | resp => exact fun _ _ h => h.congr rfl rfl
  case read => exact fun _ _ _ h => h.congr rfl rfl
  case take => exact fun _ _ _ h _ => h.congr rfl rfl
  case done => exact fun _ _ _ _ _ _ _ _ h => h.congr rfl rfl
  case fin => exact fun _ _ _ _ h => h.congr rfl rfl
  case write =>
    intro s r v h
    obtain ⟨hfmt, hsel⟩ := Regs.store_reserved h.sampleFmt h.prnSel r v
    exact ⟨h.clear, h.code, hfmt, hsel⟩
  case cmd => exact fun _ _ h heffect => heffect.keeps_latchSound h
  case src => exact fun _ k _ h _ => h.raise k rfl rfl
  case gap => exact fun _ n h _ => gapStep_latchSound h n
  case fault => exact fun _ _ _ _ _ _ _ h => h.raise .internalInvariant rfl rfl
  case fail => exact fun _ _ _ h => h.raise .internalInvariant rfl rfl

/-- Settles O60: every step from a set latch stays in the frame of the fault state, but SRESET. -/
theorem onlySresetLeavesFault : Obligations.OnlySresetLeavesFault :=
  fun _ _ hf h => step_fault_of_set hf h

/-- Settles O57: every piece of a step appends to the traces or leaves them alone. -/
theorem tracesOnlyGrow : Obligations.TracesOnlyGrow :=
  fun _ _ h => step_tracesExtend h

/-- Settles O19: the latch is the high word of the SIDX that was read, and no other agent writes it. -/
theorem sidxPairReadsOneValue : Obligations.SidxPairReadsOneValue := by
  refine ⟨fun s t ht => ?_, fun nm n x b s =>
    ⟨sampleStep_sidxHiLatch nm n x s, rawStep_sidxHiLatch nm n b s, acqFinish_sidxHiLatch nm s⟩⟩
  rw [regRead_offset] at ht ⊢
  refine ⟨rfl, ?_⟩
  show t.sidxHiLatch ++ lowWord s.sidx = s.sidx
  rw [ht]
  exact highWord_append_lowWord s.sidx

/-- Settles O54: the window memory changes by a capture's start, its samples and its end, and a search starts on a valid
window. -/
theorem stepKeepsWindowSound : Obligations.StepKeepsWindowSound := by
  refine step_keeps ?pop ?resp ?read ?write ?cmd ?src ?gap ?take ?done ?fault ?fin ?fail
  case pop | resp => exact fun _ _ h => h.congr rfl rfl rfl rfl rfl
  case read | write => exact fun _ _ _ h => h.congr rfl rfl rfl rfl rfl
  case src => exact fun _ _ _ h _ => h.congr rfl rfl rfl rfl rfl
  case done => exact fun _ _ _ _ _ _ _ _ h => h.congr rfl rfl rfl rfl rfl
  case fault => exact fun _ _ _ _ _ _ _ h => h.congr rfl rfl rfl rfl rfl
  case fail => exact fun _ _ _ h => h.congr rfl rfl rfl rfl rfl
  case cmd => exact fun _ _ h heffect => heffect.keeps_windowSound h
  case gap => exact fun _ n h _ => gapStep_windowSound h n
  case take => exact fun _ n x h _ => takeSample_windowSound h n x
  case fin => exact fun _ _ _ _ h => .of_idle h.window rfl

/-- Settles O27: a capture writes one cell, and ends with the one that fills the window. -/
theorem captureStoresSample : Obligations.CaptureStoresSample := by
  intro w n x
  refine ⟨fun hc => Win.capture_of_not_capturing hc n x, fun hc => ?_⟩
  rw [Win.capture_of_capturing hc]
  refine ⟨fun p => WinMem.read_write _ _ _ _, rfl, rfl, rfl, rfl, rfl, fun hfull => ?full, fun hfill => ?filling⟩
  case full => simp [hfull]
  case filling => simp [hfill]

end Sys2Proof.Machine

/-! PROOFS. The channels' round of an accepted sample and the unlocking at a gap, channel by channel (42_track.md R146,
R161), and the sample port's outcomes (43_host.md R190). -/

namespace Sys2Proof.Machine

/-! ### One channel's turn -/

/-- What a channel does with a sample in its turn: its step where it is active, nothing where it is not. -/
def turn (nm : Numerics) (n : Index) (x : Cplx) (C : Channel) : ChanOut :=
  if C.active = true then chanStep nm n x C else { prompts := [], events := [], chan := some C }

section
variable {nm : Numerics} {n : Index} {x : Cplx}

theorem turn_of_active {C : Channel} (h : C.active = true) : turn nm n x C = chanStep nm n x C := if_pos h

theorem turn_of_inactive {C : Channel} (h : C.active = false) :
    turn nm n x C = { prompts := [], events := [], chan := some C } := by
  simp [turn, h]

theorem turn_chan (C : Channel) :
    (turn nm n x C).chan = if C.active = true then (chanStep nm n x C).chan else some C := by
  unfold turn; split <;> rfl

theorem turn_prompts (C : Channel) :
    (turn nm n x C).prompts = if C.active = true then (chanStep nm n x C).prompts else [] := by
  unfold turn; split <;> rfl

theorem turn_events (C : Channel) :
    (turn nm n x C).events = if C.active = true then (chanStep nm n x C).events else [] := by
  unfold turn; split <;> rfl

/-- Writing back the record that stands there, with nothing emitted, changes nothing. -/
theorem chanDone_self (c : Chan) (s : State) :
    chanDone c { prompts := [], events := [], chan := some s.ch[c] } s.ch[c] s = s := by
  simp [chanDone, State.setChan, State.emitPrompts, State.emitEvents]

theorem runChannels_turn_some {c : Chan} {cs : List Chan} {s : State} {C : Channel}
    (h : (turn nm n x s.ch[c]).chan = some C) :
    runChannels nm n x (c :: cs) s = runChannels nm n x cs (chanDone c (turn nm n x s.ch[c]) C s) := by
  cases ha : s.ch[c].active with
  | true =>
    rw [turn_of_active ha] at h ⊢
    exact runChannels_done ha h
  | false =>
    rw [turn_of_inactive ha] at h ⊢
    rw [← Option.some.inj h, chanDone_self, runChannels_inactive ha]

theorem runChannels_turn_none {c : Chan} {cs : List Chan} {s : State} (h : (turn nm n x s.ch[c]).chan = none) :
    runChannels nm n x (c :: cs) s = chanFault c n (turn nm n x s.ch[c]) s := by
  cases ha : s.ch[c].active with
  | true =>
    rw [turn_of_active ha] at h ⊢
    exact runChannels_fault ha h
  | false => rw [turn_of_inactive ha] at h; cases h

/-! ### The round -/

/-- The channels' round ended with a result in every turn: each listed channel has made its turn with its own record,
and the records went out in the order of the list. -/
structure RoundDone (nm : Numerics) (n : Index) (x : Cplx) (cs : List Chan) (s t : State) : Prop where
  chans : ∀ d : Chan, some t.ch[d] = if d ∈ cs then (turn nm n x s.ch[d]).chan else some s.ch[d]
  prompts : t.prompts = s.prompts ++ cs.flatMap fun d => (turn nm n x s.ch[d]).prompts
  events : t.events = s.events ++ cs.flatMap fun d => (turn nm n x s.ch[d]).events
  fault : t.fault = s.fault
  freeCount : t.freeCount = s.freeCount

/-- A turn touches no other channel's record. -/
theorem chanDone_getElem_of_not_mem {c : Chan} {cs : List Chan} (hc : c ∉ cs) (o : ChanOut) (C : Channel) (s : State) :
    ∀ d ∈ cs, (chanDone c o C s).ch[d] = s.ch[d] := by
  intro d hd
  have hne : d ≠ c := fun e => hc (e ▸ hd)
  rw [chanDone_getElem, if_neg hne]

theorem RoundDone.cons {c : Chan} {cs : List Chan} {s t : State} {C : Channel} (hc : c ∉ cs)
    (hturn : (turn nm n x s.ch[c]).chan = some C)
    (h : RoundDone nm n x cs (chanDone c (turn nm n x s.ch[c]) C s) t) : RoundDone nm n x (c :: cs) s t := by
  have hsame := chanDone_getElem_of_not_mem hc (turn nm n x s.ch[c]) C s
  refine ⟨fun d => ?chans, ?prompts, ?events, h.fault, h.freeCount⟩
  case chans =>
    by_cases hd : d ∈ cs
    · rw [h.chans, if_pos hd, if_pos (List.mem_cons_of_mem c hd), hsame d hd]
    · rw [h.chans, if_neg hd, chanDone_getElem]
      by_cases he : d = c
      · subst he
        rw [if_pos rfl, if_pos List.mem_cons_self, hturn]
      · simp [he, hd]
  case prompts =>
    rw [h.prompts, List.flatMap_cons, chanDone_prompts, List.append_assoc]
    exact congrArg _ (congrArg _ (List.flatMap_congr fun d hd => by rw [hsame d hd]))
  case events =>
    rw [h.events, List.flatMap_cons, chanDone_events, List.append_assoc]
    exact congrArg _ (congrArg _ (List.flatMap_congr fun d hd => by rw [hsame d hd]))

/-- A round whose turns all have results is done, and one over a longer list goes on from there. -/
theorem runChannels_append {cs : List Chan} (hcs : cs.Nodup) (rest : List Chan) {s : State}
    (h : ∀ c ∈ cs, (turn nm n x s.ch[c]).chan ≠ none) :
    ∃ t, RoundDone nm n x cs s t ∧ runChannels nm n x (cs ++ rest) s = runChannels nm n x rest t := by
  induction cs generalizing s with
  | nil => exact ⟨s, ⟨fun _ => rfl, by simp, by simp, rfl, rfl⟩, rfl⟩
  | cons c cs ih =>
    obtain ⟨hc, hcs⟩ := List.nodup_cons.mp hcs
    obtain ⟨C, hturn⟩ := Option.ne_none_iff_exists'.mp (h c List.mem_cons_self)
    have hsame := chanDone_getElem_of_not_mem hc (turn nm n x s.ch[c]) C s
    obtain ⟨t, hdone, hrun⟩ := ih hcs (s := chanDone c (turn nm n x s.ch[c]) C s) fun d hd => by
      rw [hsame d hd]; exact h d (List.mem_cons_of_mem c hd)
    exact ⟨t, hdone.cons hc hturn, (runChannels_turn_some hturn).trans hrun⟩

theorem runChannels_roundDone {cs : List Chan} (hcs : cs.Nodup) {s : State}
    (h : ∀ c ∈ cs, (turn nm n x s.ch[c]).chan ≠ none) : RoundDone nm n x cs s (runChannels nm n x cs s) := by
  obtain ⟨t, hdone, hrun⟩ := runChannels_append hcs [] h
  rw [List.append_nil] at hrun
  rwa [hrun]

/-- A round that ends without a fault had a result in every turn. -/
theorem turn_ne_none_of_no_fault {cs : List Chan} (hcs : cs.Nodup) {s : State}
    (h : (runChannels nm n x cs s).fault.set = false) : ∀ c ∈ cs, (turn nm n x s.ch[c]).chan ≠ none := by
  induction cs generalizing s with
  | nil => exact fun c hc => absurd hc List.not_mem_nil
  | cons c cs ih =>
    obtain ⟨hc, hcs⟩ := List.nodup_cons.mp hcs
    cases hturn : (turn nm n x s.ch[c]).chan with
    | none =>
      rw [runChannels_turn_none hturn, chanFault_fault, FaultLatch.raise_set] at h
      cases h
    | some C =>
      rw [runChannels_turn_some hturn] at h
      intro d hd
      rcases List.mem_cons.mp hd with rfl | hd
      · rw [hturn]
        exact Option.some_ne_none C
      · rw [← chanDone_getElem_of_not_mem hc (turn nm n x s.ch[c]) C s d hd]
        exact ih hcs h d hd

/-! ### The accepted sample -/

/-- What an accepted sample changes: the counter, the window memory, the channels, the latch, two traces, the count of
free values. -/
theorem acceptSample_frame (nm : Numerics) (n : Index) (x : Cplx) (s : State) :
    acceptSample nm n x s = { s with
      sidx := n + 1#64, sidxValid := true, win := s.win.capture n x
      ch := (acceptSample nm n x s).ch, fault := (acceptSample nm n x s).fault
      prompts := (acceptSample nm n x s).prompts, events := (acceptSample nm n x s).events
      freeCount := (acceptSample nm n x s).freeCount } := by
  obtain ⟨h1, h2, h3, h4, h5, h6, h7, h8, h9, h10⟩ :=
    runChannels_frame nm n x (List.finRange nch) (takeSample n x s)
  simp only [acceptSample]
  generalize runChannels nm n x (List.finRange nch) (takeSample n x s) = u at *
  cases u
  simp_all

theorem acceptSample_roundDone {s : State} (h : (acceptSample nm n x s).fault.set = false) :
    RoundDone nm n x (List.finRange nch) (takeSample n x s) (acceptSample nm n x s) :=
  runChannels_roundDone (List.nodup_finRange nch) (turn_ne_none_of_no_fault (List.nodup_finRange nch) h)

/-- After an accepted sample that raised no fault each channel has made its turn. -/
theorem acceptSample_chan {s : State} (h : (acceptSample nm n x s).fault.set = false) (c : Chan) :
    some (acceptSample nm n x s).ch[c] = (turn nm n x s.ch[c]).chan := by
  rw [(acceptSample_roundDone h).chans, if_pos (List.mem_finRange c), takeSample_ch]

/-! ### The first channel without a number -/

/-- The channels before and after a given one. -/
theorem finRange_split (c : Chan) :
    ∃ pre post : List Chan, List.finRange nch = pre ++ c :: post ∧ (∀ d, d ∈ pre ↔ d < c) ∧ ∀ d, d ∈ post ↔ c < d := by
  obtain ⟨pre, post, hsplit⟩ := List.append_of_mem (List.mem_finRange c)
  have hmem : ∀ d : Chan, d ∈ pre ∨ d = c ∨ d ∈ post := by
    intro d
    have hd := List.mem_finRange d
    rwa [hsplit, List.mem_append, List.mem_cons] at hd
  have hsorted := List.pairwise_lt_finRange (n := nch)
  rw [hsplit, List.pairwise_append, List.pairwise_cons] at hsorted
  obtain ⟨-, ⟨hpost, -⟩, hpre⟩ := hsorted
  have hbelow : ∀ d ∈ pre, d < c := fun d hd => hpre d hd c List.mem_cons_self
  refine ⟨pre, post, hsplit, fun d => ⟨hbelow d, fun hlt => ?_⟩, fun d => ⟨hpost d, fun hlt => ?_⟩⟩
  · rcases hmem d with hd | rfl | hd
    · exact hd
    · exact absurd hlt (lt_irrefl d)
    · exact absurd hlt (lt_asymm (hpost d hd))
  · rcases hmem d with hd | rfl | hd
    · exact absurd hlt (lt_asymm (hbelow d hd))
    · exact absurd hlt (lt_irrefl d)
    · exact hd

/-- Of all channels only those below `c` count. -/
theorem flatMap_finRange_lt {α : Type} {c : Chan} {pre post : List Chan} (hsplit : List.finRange nch = pre ++ c :: post)
    (hpre : ∀ d, d ∈ pre ↔ d < c) (hpost : ∀ d, d ∈ post ↔ c < d) (f : Chan → List α) :
    (List.finRange nch).flatMap (fun d => if d < c then f d else []) = pre.flatMap f := by
  have htail : (c :: post).flatMap (fun d => if d < c then f d else []) = [] := by
    rw [List.flatMap_eq_nil_iff]
    intro d hd
    have hle : c ≤ d := (List.mem_cons.mp hd).elim (fun e => e ▸ le_refl d) fun hd => ((hpost d).mp hd).le
    exact if_neg (not_lt.mpr hle)
  rw [hsplit, List.flatMap_append, htail, List.append_nil]
  exact List.flatMap_congr fun d hd => if_pos ((hpre d).mp hd)

/-- Of all channels only those up to `c` count. -/
theorem flatMap_finRange_le {α : Type} {c : Chan} {pre post : List Chan} (hsplit : List.finRange nch = pre ++ c :: post)
    (hpre : ∀ d, d ∈ pre ↔ d < c) (hpost : ∀ d, d ∈ post ↔ c < d) (f : Chan → List α) :
    (List.finRange nch).flatMap (fun d => if d ≤ c then f d else []) = pre.flatMap f ++ f c := by
  have htail : post.flatMap (fun d => if d ≤ c then f d else []) = [] := by
    rw [List.flatMap_eq_nil_iff]
    exact fun d hd => if_neg (not_le.mpr ((hpost d).mp hd))
  rw [hsplit, List.flatMap_append, List.flatMap_cons, htail, List.append_nil, if_pos (le_refl c)]
  exact congrArg (· ++ f c) (List.flatMap_congr fun d hd => if_pos ((hpre d).mp hd).le)

/-- The round up to the first channel without a number: the channels before it have made their turns, it faults, and
there the round ends. -/
theorem acceptSample_of_fault_at {s : State} {c : Chan} (hc : (turn nm n x s.ch[c]).chan = none)
    (hbefore : ∀ d : Chan, d < c → (turn nm n x s.ch[d]).chan ≠ none) {pre post : List Chan}
    (hsplit : List.finRange nch = pre ++ c :: post) (hpre : ∀ d, d ∈ pre ↔ d < c) :
    ∃ t, RoundDone nm n x pre (takeSample n x s) t ∧ t.ch[c] = s.ch[c] ∧
      acceptSample nm n x s = chanFault c n (turn nm n x s.ch[c]) t := by
  have hnodup : pre.Nodup := by
    have hall := List.nodup_finRange nch
    rw [hsplit] at hall
    exact (List.nodup_append.mp hall).1
  obtain ⟨t, hdone, hrun⟩ := runChannels_append (nm := nm) (n := n) (x := x) hnodup (c :: post)
    (s := takeSample n x s) fun d hd => hbefore d ((hpre d).mp hd)
  have hself : t.ch[c] = s.ch[c] := by
    have hch := hdone.chans c
    rw [if_neg fun hmem => lt_irrefl c ((hpre c).mp hmem)] at hch
    exact Option.some.inj hch
  refine ⟨t, hdone, hself, ?_⟩
  rw [acceptSample, hsplit, hrun, runChannels_turn_none (hself ▸ hc), hself]

/-- An accepted sample that ended in channel `c` with a numeric exception: the turns before it stand, its own records go
out before the fault's event, the channels after it are untouched. -/
structure EndedAt (nm : Numerics) (n : Index) (x : Cplx) (c : Chan) (s t : State) : Prop where
  before : ∀ d : Chan, d < c → some t.ch[d] = (turn nm n x s.ch[d]).chan
  after : ∀ d : Chan, c < d → t.ch[d] = s.ch[d]
  fault : t.fault = { set := true, code := 4#4 }
  prompts : t.prompts = s.prompts ++ (List.finRange nch).flatMap fun d =>
    if d ≤ c then (turn nm n x s.ch[d]).prompts else []
  events : t.events = (s.events ++ (List.finRange nch).flatMap fun d =>
    if d < c then (turn nm n x s.ch[d]).events else []) ++ (turn nm n x s.ch[c]).events ++
      [faultEvent .internalInvariant s.ch[c].sv .tracker n]

theorem acceptSample_endedAt {s : State} {c : Chan} (hf : s.fault.set = false)
    (hc : (turn nm n x s.ch[c]).chan = none) (hbefore : ∀ d : Chan, d < c → (turn nm n x s.ch[d]).chan ≠ none) :
    EndedAt nm n x c s (acceptSample nm n x s) := by
  obtain ⟨pre, post, hsplit, hpre, hpost⟩ := finRange_split c
  obtain ⟨t, hdone, hself, hrun⟩ := acceptSample_of_fault_at hc hbefore hsplit hpre
  rw [hrun]
  refine ⟨fun d hd => ?before, fun d hd => ?after, ?fault, ?prompts, ?events⟩
  case before => rw [chanFault_getElem, if_neg hd.ne, hdone.chans, if_pos ((hpre d).mpr hd), takeSample_ch]
  case after =>
    have hch := hdone.chans d
    rw [if_neg fun hmem => lt_asymm hd ((hpre d).mp hmem)] at hch
    rw [chanFault_getElem, if_neg hd.ne']
    exact Option.some.inj hch
  case fault =>
    have hclear : t.fault.set = false := hdone.fault ▸ hf
    rw [chanFault_fault, FaultLatch.raise_of_clear hclear]; rfl
  case prompts =>
    rw [chanFault_prompts, hdone.prompts, List.append_assoc, takeSample_prompts, takeSample_ch,
      ← flatMap_finRange_le hsplit hpre hpost fun d => (turn nm n x s.ch[d]).prompts]
  case events =>
    rw [chanFault_events, hdone.events, hself, takeSample_events, takeSample_ch,
      ← flatMap_finRange_lt hsplit hpre hpost fun d => (turn nm n x s.ch[d]).events]

end

/-! ### The unlocking at a gap -/

/-- A channel's record after a gap. -/
def lostChannel (C : Channel) : Channel := if C.active = true then { C with st := .unlocked } else C

/-- The events of a channel at a gap. -/
def lostEvents (n : Index) (C : Channel) : List Event :=
  if C.active = true then [trackerEvent .unlocked .sampleSourceOverrun C.sv n] else []

theorem unlockChannel_eq (n : Index) (s : State) (c : Chan) :
    unlockChannel n s c = (s.setChan c (lostChannel s.ch[c])).emitEvents (lostEvents n s.ch[c]) := by
  unfold unlockChannel lostChannel lostEvents
  split
  · rfl
  · simp [State.setChan, State.emitEvents]

theorem unlockChannel_getElem (n : Index) (s : State) (c d : Chan) :
    (unlockChannel n s c).ch[d] = if d = c then lostChannel s.ch[c] else s.ch[d] := by
  rw [unlockChannel_eq]
  exact setChan_getElem s c d _

/-- Unlocking channels one after the other: each loses its own record's lock, and the events go out in order. -/
theorem foldl_unlockChannel (n : Index) {cs : List Chan} (hcs : cs.Nodup) (s : State) :
    (∀ d : Chan, (cs.foldl (unlockChannel n) s).ch[d] = if d ∈ cs then lostChannel s.ch[d] else s.ch[d]) ∧
    (cs.foldl (unlockChannel n) s).events = s.events ++ cs.flatMap fun d => lostEvents n s.ch[d] := by
  induction cs generalizing s with
  | nil => exact ⟨fun _ => rfl, by simp⟩
  | cons c cs ih =>
    obtain ⟨hc, hcs⟩ := List.nodup_cons.mp hcs
    obtain ⟨hch, hevents⟩ := ih hcs (unlockChannel n s c)
    have hsame : ∀ d ∈ cs, (unlockChannel n s c).ch[d] = s.ch[d] := fun d hd => by
      have hne : d ≠ c := fun e => hc (e ▸ hd)
      rw [unlockChannel_getElem, if_neg hne]
    refine ⟨fun d => ?_, ?_⟩
    · rw [List.foldl_cons, hch]
      by_cases hd : d ∈ cs
      · rw [if_pos hd, if_pos (List.mem_cons_of_mem c hd), hsame d hd]
      · rw [if_neg hd, unlockChannel_getElem]
        by_cases he : d = c
        · subst he; simp
        · simp [he, hd]
    · rw [List.foldl_cons, hevents, List.flatMap_cons, ← List.append_assoc]
      refine congrArg₂ _ ?_ (List.flatMap_congr fun d hd => by rw [hsame d hd])
      rw [unlockChannel_eq]
      rfl

theorem unlockAll_chan (n : Index) (s : State) (c : Chan) : (unlockAll n s).ch[c] = lostChannel s.ch[c] := by
  rw [unlockAll, (foldl_unlockChannel n (List.nodup_finRange nch) s).1, if_pos (List.mem_finRange c)]

theorem unlockAll_events (n : Index) (s : State) :
    (unlockAll n s).events = s.events ++ (List.finRange nch).flatMap fun c => lostEvents n s.ch[c] :=
  (foldl_unlockChannel n (List.nodup_finRange nch) s).2

theorem gapStep_ch (n : Index) (s : State) :
    (gapStep n s).ch = (unlockAll n (s.emitEvents [overrunEvent n])).ch := by rw [gapStep_eq]

theorem gapStep_chan (n : Index) (s : State) (c : Chan) : (gapStep n s).ch[c] = lostChannel s.ch[c] := by
  rw [gapStep_ch, unlockAll_chan, emitEvents_ch]

/-- What a gap changes: the channels, the events, the counter, a running capture. -/
theorem gapStep_frame (n : Index) (s : State) :
    gapStep n s = { s with
      ch := (gapStep n s).ch, events := (gapStep n s).events, sidx := n + 1#64
      win := if s.win.capturing then s.win.abandon else s.win } := by
  rw [gapStep_ch, gapStep_events]
  exact gapStep_eq n s

/-! ### The outcome of a sample by its index -/

section
variable {nm : Numerics} {n : Index} {x : Cplx} {s : State} (hf : s.fault.set = false)
include hf

theorem sampleStep_of_expected (h : s.sidxValid = true → n = s.sidx) :
    sampleStep nm n x s = acceptSample nm n x s := by
  cases hv : s.sidxValid with
  | false => simp [sampleStep, hf, hv]
  | true => simp [sampleStep, hf, hv, h hv]

theorem sampleStep_of_backward (hv : s.sidxValid = true) (h : n < s.sidx) :
    sampleStep nm n x s = sourceFault .internalInvariant n s := by
  simp [sampleStep, hf, hv, h]

theorem sampleStep_of_gap (hv : s.sidxValid = true) (h : s.sidx < n) : sampleStep nm n x s = gapStep n s := by
  have hback : ¬ n < s.sidx := BitVec.not_lt.mpr (BitVec.le_of_lt h)
  simp [sampleStep, hf, hv, h, hback]

end

/-- With no active channel the round has nothing to do. -/
theorem runChannels_of_inactive (nm : Numerics) (n : Index) (x : Cplx) (cs : List Chan) {s : State}
    (h : ∀ c : Chan, s.ch[c].active = false) : runChannels nm n x cs s = s := by
  induction cs with
  | nil => rfl
  | cons c cs ih => rw [runChannels_inactive (h c), ih]

/-! ### The obligations -/

/-- Settles O47: an accepted sample's round, turn by turn. -/
theorem channelsRunIndependently : Obligations.ChannelsRunIndependently := by
  refine fun nm n x s => ⟨fun hf h => sampleStep_of_expected hf h, fun h => ⟨fun c => ?_, ?_⟩⟩
  · rw [acceptSample_chan h, turn_chan]
  · have hdone := acceptSample_roundDone h
    conv_lhs => rw [acceptSample_frame]
    rw [hdone.fault, hdone.freeCount, hdone.prompts, hdone.events]
    simp only [turn_prompts, turn_events, takeSample_ch]
    rfl

/-- Settles O48: the round up to the channel without a number, which emits no event of its own. -/
theorem numericExceptionFaultsChannel : Obligations.NumericExceptionFaultsChannel := by
  intro nm n x s c hf ha hnone hbefore
  have hturn : turn nm n x s.ch[c] = chanStep nm n x s.ch[c] := turn_of_active ha
  have hresults : ∀ d : Chan, d < c → (turn nm n x s.ch[d]).chan ≠ none := by
    intro d hd
    rw [turn_chan]
    split
    · next had => exact hbefore d hd had
    · exact Option.some_ne_none _
  have hend := acceptSample_endedAt hf (hturn ▸ hnone) hresults
  refine ⟨fun d hd => by rw [hend.before d hd, turn_chan], hend.after, ?_⟩
  conv_lhs => rw [acceptSample_frame]
  rw [hend.fault, hend.prompts, hend.events, hturn, chanStep_none_events hnone, List.append_nil]
  simp only [turn_prompts, turn_events, ite_and]
  rfl

/-- Settles O49: a round over inactive channels. -/
theorem sampleWithoutChannels : Obligations.SampleWithoutChannels := by
  intro nm n x s hf hv hinactive
  rw [sampleStep_of_expected hf hv, acceptSample, runChannels_of_inactive]
  · rfl
  · exact hinactive

/-- Settles O50: a gap, channel by channel. -/
theorem gapUnlocksChannels : Obligations.GapUnlocksChannels := by
  intro nm n x s hf hv hgap
  rw [sampleStep_of_gap hf hv hgap]
  refine ⟨gapStep_chan n s, ?_⟩
  have hevents := gapStep_events n s
  rw [unlockAll_events, emitEvents_events, List.append_assoc] at hevents
  conv_lhs => rw [gapStep_frame, hevents]
  rfl

/-- Settles O51: an index below the expected one is the source's fault. -/
theorem backwardIndexFaults : Obligations.BackwardIndexFaults := by
  intro nm n x s hf hv hback
  rw [sampleStep_of_backward hf hv hback, sourceFault, raiseFault_of_clear hf]
  rfl

end Sys2Proof.Machine

/-! PROOFS. What every step keeps of the tracking channels (10_state.md R41), the transitions of a channel's state
(42_track.md R158), and the reset state (10_state.md R40). -/

namespace Sys2Proof.Machine

/-! ### A channel's record through a dump -/

/-- A record that is not active has only its buffer to keep in bounds. -/
theorem Channel.Sound.of_inactive {C : Channel} (ha : C.active = false) (hbuffer : C.pbuf.length ≤ 1000) :
    C.Sound := by
  have hst := Channel.active_eq_false_iff.mp ha
  refine ⟨fun h => ?_, fun h => ?_, fun h => ?_, fun h => ?_, fun h => ?_, hbuffer⟩
  · rw [ha] at h; cases h
  · rw [ha] at h; cases h
  all_goals simp [h] at hst

theorem Channel.reset_sound : Channel.reset.Sound := .of_inactive rfl (Nat.zero_le _)

/-- The channel step up to the dump keeps the record sound, fixes the phase, and moves no state. -/
theorem trackSample_sound {nm : Numerics} {n : Index} {x : Cplx} {C : Channel} {r : Channel × Int} (h : C.Sound)
    (htrack : trackSample nm n x C = some r) :
    r.1.Sound ∧ r.1.phasePending = false ∧ r.1.st = C.st ∧ r.1.sv = C.sv := by
  obtain ⟨hkept, hphase, ⟨hcp0, hcp1⟩, hth0, hth1⟩ := trackSample_some htrack
  obtain ⟨hst, hsv, hfs, -, -, -, -, -, -, -, -, -, haligned, hpull, hbelow, -, hpbuf⟩ := hkept
  refine ⟨⟨?_, fun _ _ => ⟨hcp0, hcp1, hth0, hth1⟩, ?_, ?_, ?_, ?_⟩, hphase, hst, hsv⟩
  · rw [Channel.active, hst, hsv, hfs]; exact h.seeded
  · rw [hst, haligned, hpull, hpbuf]; exact h.acquired
  · intro hp
    obtain ⟨ha, -, hcount, hlength⟩ := h.pullIn (hst ▸ hp)
    rw [haligned, hpull, hpbuf]
    exact ⟨ha, hphase, hcount, hlength⟩
  · intro hl
    obtain ⟨ha, -, hcount, hlength⟩ := h.locked (hst ▸ hl)
    rw [haligned, hbelow, hpbuf]
    exact ⟨ha, hphase, hcount, hlength⟩
  · rw [hpbuf]; exact h.buffer

/-- What a dump keeps of a record, with the transition it makes. -/
structure DumpSound (C C' : Channel) : Prop where
  sound : C'.Sound
  moves : C.st.mayBecome C'.st = true
  sv : C'.sv = C.sv

/-- The alignment dump, ACQUIRED to PULL_IN. -/
theorem alignmentDump_sound {C : Channel} (h : C.Sound) (hst : C.st = .acquired) (hphase : C.phasePending = false)
    (n : Index) : DumpSound C (clearEpoch n { C with aligned := true, st := .pullIn }) := by
  have hactive : C.active = true := by simp [Channel.active, hst]
  obtain ⟨-, hcount, hpbuf⟩ := h.acquired hst
  refine ⟨⟨fun _ => h.seeded hactive, fun _ _ => h.phases hactive hphase, nofun, fun _ => ?_, nofun, h.buffer⟩, ?_, rfl⟩
  · simp [clearEpoch, hphase, hcount, hpbuf]
  · simp [clearEpoch, hst, ChState.mayBecome]

/-- What the loops of a dump leave of an aligned record: its seed, its phases, its flags. -/
theorem Counted.kept {C G : Channel} (hG : Counted C G) (h : C.Sound) (ha : C.active = true)
    (haligned : C.aligned = true) (hphase : C.phasePending = false) :
    (svLegal G.sv = true ∧ 2046000 ≤ G.fs) ∧ (0 ≤ G.cp ∧ G.cp < 1023 ∧ 0 ≤ G.theta ∧ G.theta < 1) ∧
      G.aligned = true ∧ G.phasePending = false := by
  rw [hG.sv, hG.fs, hG.cp, hG.theta, hG.aligned, hG.phasePending]
  exact ⟨h.seeded ha, h.phases ha hphase, haligned, hphase⟩

/-- Pull-in counts its dumps in step with the buffer; the 500th locks. -/
theorem pullInDump_sound {C G : Channel} (h : C.Sound) (hst : C.st = .pullIn) (hG : Counted C G) (n : Index) :
    DumpSound C (clearEpoch n (pullInDump n G).1) := by
  obtain ⟨haligned, hphase, hcount, hlength⟩ := h.pullIn hst
  have hactive : C.active = true := by simp [Channel.active, hst]
  obtain ⟨hseeded, hphases, hflags⟩ := hG.kept h hactive haligned hphase
  have hnext : (G.pullCnt + 1#9).toNat = C.pullCnt.toNat + 1 := by rw [hG.pullCnt]; bv_omega
  have hgrown : G.pbuf.length = C.pullCnt.toNat + 1 := by
    rw [hG.pbuf, pushPrompt_length, hlength, pbufDepth]; omega
  rcases pullInDump_cases n G with ⟨hlast, hdump⟩ | ⟨hmore, hdump⟩ <;> rw [hdump]
  · have hlast' : C.pullCnt.toNat + 1 = 500 := by rw [← hnext, hlast]; rfl
    refine ⟨⟨fun _ => hseeded, fun _ _ => hphases, nofun, nofun, fun _ => ?_, ?_⟩, ?_, hG.sv⟩
    · exact ⟨hflags.1, hflags.2, Nat.zero_lt_succ _, by show 500 ≤ G.pbuf.length; omega⟩
    · show G.pbuf.length ≤ 1000; omega
    · rw [hst]; rfl
  · have hmore' : C.pullCnt.toNat + 1 ≠ 500 := fun e => hmore (BitVec.eq_of_toNat_eq (hnext.trans e))
    have hstay : G.st = .pullIn := hG.st.trans hst
    refine ⟨⟨fun _ => hseeded, fun _ _ => hphases, fun e => ?_, fun _ => ?_, fun e => ?_, ?_⟩, ?_, hG.sv⟩
    · exact absurd (hstay.symm.trans e) (by decide)
    · exact ⟨hflags.1, hflags.2, by show (G.pullCnt + 1#9).toNat < 500; omega, hgrown.trans hnext.symm⟩
    · exact absurd (hstay.symm.trans e) (by decide)
    · show G.pbuf.length ≤ 1000; omega
    · show C.st.mayBecome G.st = true
      rw [hst, hstay]; rfl

/-- The lock detector counts below 2000 in LOCKED; the 2000th demotes. -/
theorem lockedDump_sound {C G : Channel} (h : C.Sound) (hst : C.st = .locked) (hG : Counted C G) (n : Index)
    (below : Bool) : DumpSound C (clearEpoch n (lockedDump n below G).1) := by
  obtain ⟨haligned, hphase, hcount, hlength⟩ := h.locked hst
  have hactive : C.active = true := by simp [Channel.active, hst]
  obtain ⟨hseeded, hphases, hflags⟩ := hG.kept h hactive haligned hphase
  have hnext : (G.belowCnt + 1#11).toNat = C.belowCnt.toNat + 1 := by rw [hG.belowCnt]; bv_omega
  have hbuffer : 500 ≤ G.pbuf.length ∧ G.pbuf.length ≤ 1000 := by
    rw [hG.pbuf, pushPrompt_length, pbufDepth]; omega
  have hstay : G.st = .locked := hG.st.trans hst
  have hkept : ∀ cnt : BitVec 11, cnt.toNat < 2000 → DumpSound C (clearEpoch n { G with belowCnt := cnt }) := by
    intro cnt hcnt
    refine ⟨⟨fun _ => hseeded, fun _ _ => hphases, fun e => ?_, fun e => ?_, fun _ => ?_, hbuffer.2⟩, ?_, hG.sv⟩
    · exact absurd (hstay.symm.trans e) (by decide)
    · exact absurd (hstay.symm.trans e) (by decide)
    · exact ⟨hflags.1, hflags.2, hcnt, hbuffer.1⟩
    · show C.st.mayBecome G.st = true
      rw [hst, hstay]; rfl
  rcases lockedDump_cases n below G with ⟨-, -, hdump⟩ | ⟨-, hmore, hdump⟩ | ⟨-, hdump⟩ <;> rw [hdump]
  · exact ⟨.of_inactive rfl hbuffer.2, by rw [hst]; rfl, hG.sv⟩
  · refine hkept _ ?_
    have hmore' : C.belowCnt.toNat + 1 ≠ 2000 := fun e => hmore (BitVec.eq_of_toNat_eq (hnext.trans e))
    omega
  · exact hkept 0#11 (by decide)

/-- A dump of an active channel with its phase fixed. -/
theorem dump_sound {nm : Numerics} {n : Index} {C C' : Channel} (h : C.Sound) (ha : C.active = true)
    (hphase : C.phasePending = false) (hdump : (dump nm n C).chan = some C') : DumpSound C C' := by
  have hstates := Channel.active_eq_true_iff.mp ha
  rcases dump_some hdump with ⟨hpartial, rfl⟩ | ⟨haligned, G, r, hG, hmachine, rfl, -⟩
  · rcases hstates with hst | hst | hst
    · exact alignmentDump_sound h hst hphase n
    · rw [(h.pullIn hst).1] at hpartial; cases hpartial
    · rw [(h.locked hst).1] at hpartial; cases hpartial
  · rcases stateMachine_some hmachine with ⟨hst, rfl⟩ | ⟨hst, below, -, rfl⟩ | ⟨hnotPullIn, hnotLocked, -⟩
    · exact pullInDump_sound h (hG.st.symm.trans hst) hG n
    · exact lockedDump_sound h (hG.st.symm.trans hst) hG n below
    · rw [hG.st] at hnotPullIn hnotLocked
      have hst := hstates.resolve_right (not_or.mpr ⟨hnotPullIn, hnotLocked⟩)
      rw [(h.acquired hst).1] at haligned; cases haligned

/-- A channel step with a result: the record up to the dump, and the dump where the code wrapped. -/
theorem chanStep_some {nm : Numerics} {n : Index} {x : Cplx} {C C' : Channel}
    (h : (chanStep nm n x C).chan = some C') :
    ∃ r, trackSample nm n x C = some r ∧ ((1 ≤ r.2 ∧ (dump nm n r.1).chan = some C') ∨ (r.2 < 1 ∧ C' = r.1)) := by
  unfold chanStep at h
  cases htrack : trackSample nm n x C with
  | none => simp [htrack] at h
  | some r =>
    simp only [htrack] at h
    refine ⟨r, rfl, ?_⟩
    split at h
    · next hwrap => exact .inl ⟨hwrap, h⟩
    · next hwrap => exact .inr ⟨not_le.mp hwrap, (Option.some.inj h).symm⟩

theorem ChState.mayBecome_self (st : ChState) : st.mayBecome st = true := by cases st <;> rfl

/-- A sample keeps an active channel's record sound, its SV the same, and moves its state as the table says. -/
theorem chanStep_sound {nm : Numerics} {n : Index} {x : Cplx} {C C' : Channel} (h : C.Sound) (ha : C.active = true)
    (hstep : (chanStep nm n x C).chan = some C') : DumpSound C C' := by
  obtain ⟨r, htrack, hresult⟩ := chanStep_some hstep
  obtain ⟨hsound, hphase, hst, hsv⟩ := trackSample_sound h htrack
  rcases hresult with ⟨-, hdump⟩ | ⟨-, rfl⟩
  · have hactive : r.1.active = true := by rw [Channel.active, hst]; exact ha
    obtain ⟨hsound', hmoves, hsv'⟩ := dump_sound hsound hactive hphase hdump
    exact ⟨hsound', hst ▸ hmoves, hsv'.trans hsv⟩
  · exact ⟨hsound, by rw [hst]; exact C.st.mayBecome_self, hsv⟩

/-! ### The channels through a step -/

/-- `TrackSound` reads the fault latch's flag and the channels only. -/
theorem TrackSound.congr {s t : State} (h : TrackSound s) (hfault : t.fault.set = s.fault.set) (hch : t.ch = s.ch) :
    TrackSound t :=
  ⟨by rw [hfault, hch]; exact h.channels, by rw [hfault, hch]; exact h.distinct⟩

/-- With a fault set nothing is claimed. -/
theorem TrackSound.of_fault {s : State} (hf : s.fault.set = true) : TrackSound s :=
  ⟨fun h => absurd (hf.symm.trans h) (by decide), fun h => absurd (hf.symm.trans h) (by decide)⟩

/-- A sound record may replace a channel's when no other active channel has its SV. -/
theorem TrackSound.update {s t : State} (h : TrackSound s) {c : Chan} {C : Channel} (hfault : t.fault = s.fault)
    (hch : ∀ d : Chan, t.ch[d] = if d = c then C else s.ch[d]) (hC : s.fault.set = false → C.Sound)
    (hsv : s.fault.set = false → C.active = true → ∀ d : Chan, d ≠ c → s.ch[d].active = true → s.ch[d].sv ≠ C.sv) :
    TrackSound t := by
  have hself : t.ch[c] = C := by rw [hch, if_pos rfl]
  have hother : ∀ d : Chan, d ≠ c → t.ch[d] = s.ch[d] := fun d hd => by rw [hch, if_neg hd]
  constructor
  · intro hf d
    rw [hfault] at hf
    by_cases hd : d = c
    · subst hd; rw [hself]; exact hC hf
    · rw [hother d hd]; exact h.channels hf d
  · intro hf d e had hae hde
    rw [hfault] at hf
    by_cases hd : d = c <;> by_cases he : e = c
    · exact hd.trans he.symm
    · subst hd
      rw [hself] at had hde
      rw [hother e he] at hae hde
      exact absurd hde.symm (hsv hf had e he hae)
    · subst he
      rw [hself] at hae hde
      rw [hother d hd] at had hde
      exact absurd hde (hsv hf hae d hd had)
    · rw [hother d hd] at had hde
      rw [hother e he] at hae hde
      exact h.distinct hf d e had hae hde

theorem seedChannel_sound (nm : Numerics) {r : Regs} {sv : BitVec 6} (hsv : svLegal sv = true) (hcfg : cfgOk r = true) :
    (seedChannel nm r sv).Sound := by
  obtain ⟨hrate, -⟩ := cfgOkWith_iff.mp hcfg
  exact ⟨fun _ => ⟨hsv, hrate⟩, nofun, fun _ => ⟨rfl, rfl, rfl⟩, nofun, nofun, Nat.zero_le _⟩

theorem softReset_trackSound (s : State) : TrackSound (softReset s) := by
  refine ⟨fun _ c => ?_, fun _ c d hc => ?_⟩
  · rw [softReset_chan]; exact Channel.reset_sound
  · rw [softReset_chan] at hc; cases hc

theorem CommandEffect.keeps_trackSound {s t : State} (h : TrackSound s) (heffect : CommandEffect s t) :
    TrackSound t := by
  cases heffect with
  | configFault sv g => exact .of_fault (FaultLatch.raise_set _ _)
  | seed c sv _ hsv hcfg _ _ hdup _ =>
    exact h.update rfl (setChan_getElem s c · _) (fun _ => seedChannel_sound _ hsv hcfg)
      fun _ _ => svTrackedElsewhere_eq_false_iff.mp hdup
  | stop c hf _ =>
    exact h.update rfl (setChan_getElem s c · _) (fun _ => .of_inactive rfl (h.channels hf c).buffer) nofun
  | reset => exact softReset_trackSound s
  | _ => exact h.congr rfl rfl

theorem chanDone_trackSound {nm : Numerics} {n : Index} {x : Cplx} {c : Chan} {s : State} {C : Channel}
    (ha : s.ch[c].active = true) (hC : (chanStep nm n x s.ch[c]).chan = some C) (h : TrackSound s) :
    TrackSound (chanDone c (chanStep nm n x s.ch[c]) C s) := by
  refine h.update rfl (chanDone_getElem s c · _ C) (fun hf => (chanStep_sound (h.channels hf c) ha hC).sound)
    fun hf _ d hd had hsv => hd (h.distinct hf d c had ha ?_)
  rw [hsv, (chanStep_sound (h.channels hf c) ha hC).sv]

theorem lostChannel_active (C : Channel) : (lostChannel C).active = false := by
  unfold lostChannel
  split
  · rfl
  · next ha => simpa using ha

theorem lostChannel_pbuf (C : Channel) : (lostChannel C).pbuf = C.pbuf := by
  unfold lostChannel; split <;> rfl

theorem gapStep_fault (n : Index) (s : State) : (gapStep n s).fault = s.fault := by rw [gapStep_eq]

theorem gapStep_trackSound {s : State} (h : TrackSound s) (n : Index) : TrackSound (gapStep n s) := by
  refine ⟨fun hf c => ?_, fun _ c d hc => ?_⟩
  · rw [gapStep_fault] at hf
    rw [gapStep_chan]
    exact .of_inactive (lostChannel_active _) (by rw [lostChannel_pbuf]; exact (h.channels hf c).buffer)
  · rw [gapStep_chan, lostChannel_active] at hc; cases hc

/-! ### The transitions of a step -/

/-- Every channel's state moves as the table of 42_track.md R158 says, or stays. -/
def ChannelsMove (s t : State) : Prop := ∀ c : Chan, s.ch[c].st.mayBecome t.ch[c].st = true

theorem ChannelsMove.of_eq {s t : State} (h : t.ch = s.ch) : ChannelsMove s t := by
  intro c; rw [h]; exact ChState.mayBecome_self _

/-- A command moves at most the one channel it names; SRESET leaves a channel IDLE whatever it was. -/
theorem CommandEffect.channelsMove {s t : State} (heffect : CommandEffect s t) : ChannelsMove s t := by
  cases heffect with
  | seed c sv _ _ _ ha _ _ _ =>
    intro d
    show s.ch[d].st.mayBecome (s.setChan c (seedChannel Config.num s.regs sv)).ch[d].st = true
    rw [setChan_getElem]
    split
    · next hd =>
      rcases Channel.active_eq_false_iff.mp ha with hst | hst <;> (rw [hd, hst]; rfl)
    · exact ChState.mayBecome_self _
  | stop c _ ha =>
    intro d
    show s.ch[d].st.mayBecome (s.setChan c { s.ch[c] with st := .idle }).ch[d].st = true
    rw [setChan_getElem]
    split
    · next hd =>
      rcases Channel.active_eq_true_iff.mp ha with hst | hst | hst <;> (rw [hd, hst]; rfl)
    · exact ChState.mayBecome_self _
  | reset =>
    intro d
    rw [softReset_chan]
    cases s.ch[d].st <;> rfl
  | _ => exact .of_eq rfl

theorem lostChannel_moves (C : Channel) : C.st.mayBecome (lostChannel C).st = true := by
  unfold lostChannel
  split
  · next ha => rcases Channel.active_eq_true_iff.mp ha with hst | hst | hst <;> (rw [hst]; rfl)
  · exact C.st.mayBecome_self

theorem turn_moves {nm : Numerics} {n : Index} {x : Cplx} {C C' : Channel} (h : C.Sound)
    (hturn : (turn nm n x C).chan = some C') : C.st.mayBecome C'.st = true := by
  cases ha : C.active with
  | true => exact (chanStep_sound h ha (turn_of_active ha ▸ hturn)).moves
  | false =>
    rw [turn_of_inactive ha] at hturn
    rw [← Option.some.inj hturn]
    exact C.st.mayBecome_self

theorem sampleStep_channelsMove {nm : Numerics} {n : Index} {x : Cplx} {s : State} (h : TrackSound s)
    (hf : s.fault.set = false) (hf' : (sampleStep nm n x s).fault.set = false) :
    ChannelsMove s (sampleStep nm n x s) := by
  have heffect := sampleStep_effect nm n x s
  generalize sampleStep nm n x s = t at heffect hf' ⊢
  cases heffect with
  | ignored => exact .of_eq rfl
  | backward => exact absurd hf' (by simp [sourceFault, raiseFault])
  | gap =>
    intro c
    rw [gapStep_chan]
    exact lostChannel_moves _
  | accepted => exact fun c => turn_moves (h.channels hf c) (acceptSample_chan hf' c).symm

theorem acqFinish_ch (nm : Numerics) (s : State) : (acqFinish nm s).ch = s.ch :=
  acqFinish_keeps (P := fun t => t.ch = s.ch) (fun _ _ _ _ h => h) (fun _ _ _ h => h) nm s rfl

theorem StepEffect.channelsMove {s t : State} (heffect : StepEffect s t) (h : TrackSound s) (hf : s.fault.set = false)
    (hf' : t.fault.set = false) : ChannelsMove s t := by
  cases heffect with
  | access => exact .of_eq rfl
  | command hcommand => exact hcommand.channelsMove
  | sample n x => exact sampleStep_channelsMove h hf hf'
  | badSample => exact .of_eq rfl
  | engine => exact .of_eq (acqFinish_ch _ s)

/-! ### The obligations -/

/-- Settles O55: a record changes by a sample, a seed, a stop or a loss, each of which keeps it sound and its SV its
own. -/
theorem stepKeepsTrackSound : Obligations.StepKeepsTrackSound := by
  refine step_keeps ?pop ?resp ?read ?write ?cmd ?src ?gap ?take ?done ?fault ?fin ?fail
  case pop | resp => exact fun _ _ h => h.congr rfl rfl
  case read | write => exact fun _ _ _ h => h.congr rfl rfl
  case cmd => exact fun _ _ h heffect => heffect.keeps_trackSound h
  case src => exact fun _ _ _ _ _ => .of_fault (FaultLatch.raise_set _ _)
  case gap => exact fun _ n h _ => gapStep_trackSound h n
  case take => exact fun _ _ _ h _ => h.congr rfl rfl
  case done => exact fun _ _ _ _ _ _ ha hC h => chanDone_trackSound ha hC h
  case fault => exact fun _ _ _ _ _ _ _ _ => .of_fault (FaultLatch.raise_set _ _)
  case fin => exact fun _ _ _ _ h => h.congr rfl rfl
  case fail => exact fun _ _ _ _ => .of_fault (FaultLatch.raise_set _ _)

/-- Settles O58: a step gives each channel one turn at most, and a turn makes one transition of the table. -/
theorem channelTransitionsFollowTable : Obligations.ChannelTransitionsFollowTable := by
  intro s t h hf hstep hf'
  obtain ⟨rest, heffect⟩ := step_effect hstep
  exact heffect.channelsMove (h.congr rfl rfl) hf hf'

/-- Settles O53: the reset state is what SRESET makes of itself. -/
theorem resetIsSound : Obligations.ResetIsSound :=
  ⟨softReset_atReset State.reset, rfl, rfl, rfl, softReset_windowSound State.reset, softReset_trackSound State.reset,
    softReset_latchSound State.reset⟩

end Sys2Proof.Machine

/-! PROOFS. The register file (10_state.md R23, 43_host.md R180, R181). -/

namespace Sys2Proof.Machine

/-! ### What a write stores -/

/-- A write under the mask is what the register then shows (43_host.md R181). -/
theorem regValue_store_self {r : RegName} (hr : r.access = .rw) (v : Word) (s : State) (resp : HostResp) :
    regValue { s with regs := s.regs.store r v, hostResp := resp } r = v &&& r.writableMask := by
  cases r <;> cases hr <;> rfl

/-- Every other read-write register keeps its value. -/
theorem regValue_store_other {r r' : RegName} (hr : r.access = .rw) (hr' : r'.access = .rw) (hne : r' ≠ r) (v : Word)
    (s : State) (resp : HostResp) :
    regValue { s with regs := s.regs.store r v, hostResp := resp } r' = regValue s r' := by
  cases r <;> cases hr <;> cases r' <;> cases hr' <;> simp_all [regValue, Regs.store]

/-- Only two registers have reserved bits (43_host.md R181). -/
theorem writableMask_eq (r : RegName) :
    r.writableMask =
      if r = .sampleFmt then 0x00000003#32 else if r = .prnSel then 0x003F03FF#32 else 0xFFFFFFFF#32 := by
  cases r <;> rfl

/-! ### The obligations -/

/-- Settles O15: the map entry by entry; a channel's registers at reset are those of an idle record. -/
theorem registerMapAfterReset : Obligations.RegisterMapAfterReset := by
  refine ⟨by decide, ⟨regAt_offset .prnData, rfl⟩, fun c =>
    ⟨⟨regAt_offset (.chStatus c), rfl, ?_⟩, regAt_offset (.chEpochs c), rfl, ?_⟩⟩
  · show chStatusWord State.reset.ch[c] = 0
    rw [reset_chan]; decide
  · show State.reset.ch[c].epochs = 0
    rw [reset_chan]; rfl

/-- Settles O16: a read answers `regValue`, whose fields are those of the state. -/
theorem regReadAnswersValue : Obligations.RegReadAnswersValue := by
  refine ⟨fun nm r s => congrArg Host.Outcome.next (regRead_offset r s), fun s => ?_, by decide⟩
  refine ⟨⟨rfl, rfl⟩, ⟨rfl, rfl, rfl, rfl, rfl, rfl, rfl, rfl, rfl, rfl, rfl, rfl, rfl, rfl, rfl, rfl, rfl⟩,
    ⟨rfl, rfl, rfl⟩, ⟨?status, ?sv, rfl, rfl, highWord_append_lowWord _⟩, highWord_append_lowWord _, fun _ => rfl⟩
  case status => exact BitVec.toNat_setWidth_of_le (by decide)
  case sv => exact BitVec.toNat_setWidth_of_le (by decide)

/-- Settles O17: a write by the access kind of the register. -/
theorem regWriteStoresMasked : Obligations.RegWriteStoresMasked := by
  intro nm r v s
  refine ⟨fun hr => ⟨s.regs.store r v, hostWrite_of_rw hr v s, fun r' hr' => ?_⟩, ?cmd,
    fun hr => hostWrite_of_ro hr 32 v s⟩
  case cmd => rintro rfl; exact agentStep_cmd nm v s
  split
  · next he => rw [he, regValue_store_self hr, writableMask_eq]
  · next hne => exact regValue_store_other hr hr' hne v s .done

end Sys2Proof.Machine

/-! PROOFS. The PRN generator: its period, its chips, their balance, and the resampling (40_prn.md R101 to R106). -/

namespace Sys2Proof.Machine

/-! ### The registers -/

theorem lfsrAfter_1023 : lfsrAfter 1023 = Lfsr.start := by decide +kernel

/-- The registers come back after 1023 shifts, from wherever they stand. -/
theorem lfsrAfter_add_1023 (i : Nat) : lfsrAfter (i + 1023) = lfsrAfter i := by
  induction i with
  | zero => exact (congrArg lfsrAfter (Nat.zero_add 1023)).trans lfsrAfter_1023
  | succ i ih => rw [Nat.add_right_comm, lfsrAfter, ih, lfsrAfter]

/-! ### Counting the ones of a code -/

/-- The states of `k` shifts on from a state, each one shift after the one before it. -/
def statesFrom : Nat → Lfsr → List Lfsr
  | 0, _ => []
  | k + 1, l => l :: statesFrom k l.shift

/-- Shifting along meets the same states as starting over for each. -/
theorem statesFrom_lfsrAfter (k j : Nat) :
    statesFrom k (lfsrAfter j) = (List.range k).map fun i => lfsrAfter (j + i) := by
  induction k generalizing j with
  | zero => rfl
  | succ k ih =>
    have hnext : (lfsrAfter j).shift = lfsrAfter (j + 1) := rfl
    rw [statesFrom, hnext, ih, List.range_succ_eq_map, List.map_cons, List.map_map, Nat.add_zero]
    refine congrArg (lfsrAfter j :: ·) (List.map_congr_left fun i _ => ?_)
    rw [Function.comp_apply, Nat.succ_eq_add_one, Nat.add_right_comm, Nat.add_assoc]

/-- Every pair of taps, with the output bit written out so that the 32 counts read the same stages. -/
theorem g2Taps_all_balanced :
    (Config.g2Taps.all fun (a, b) =>
      (statesFrom 1023 Lfsr.start).countP (fun l => stage l.g1 10 ^^ stage l.g2 a ^^ stage l.g2 b) == 512) = true := by
  decide +kernel

theorem output_ones {taps : Nat × Nat} (h : taps ∈ Config.g2Taps) :
    (statesFrom 1023 Lfsr.start).countP (fun l => l.output taps) = 512 :=
  beq_iff_eq.mp (List.all_eq_true.mp g2Taps_all_balanced taps h)

/-- A legal SV has its pair of taps, and its chips are the registers' output for it. -/
theorem exists_taps {sv : BitVec 6} (hsv : svLegal sv = true) :
    ∃ taps ∈ Config.g2Taps, ∀ i < 1023, ca sv i = (lfsrAfter i).output taps := by
  obtain ⟨hlow, hhigh⟩ := svLegal_eq_true_iff.mp hsv
  have hlt : sv.toNat - 1 < Config.g2Taps.length := by
    have hlength : Config.g2Taps.length = 32 := rfl
    omega
  refine ⟨Config.g2Taps[sv.toNat - 1], List.getElem_mem hlt, fun i hi => ?_⟩
  have hexists : ¬(sv.toNat = 0 ∨ 1023 ≤ i) := by omega
  rw [ca, caWith, if_neg hexists, List.getElem?_eq_getElem hlt]

theorem ca_ones {sv : BitVec 6} (hsv : svLegal sv = true) : (List.range 1023).countP (fun i => ca sv i) = 512 := by
  obtain ⟨taps, htaps, hca⟩ := exists_taps hsv
  calc (List.range 1023).countP (fun i => ca sv i)
    _ = (List.range 1023).countP ((fun l => l.output taps) ∘ fun i => lfsrAfter (0 + i)) :=
      List.countP_congr fun i hi => by rw [hca i (List.mem_range.mp hi), Function.comp_apply, Nat.zero_add]
    _ = (statesFrom 1023 (lfsrAfter 0)).countP (fun l => l.output taps) := by
      rw [statesFrom_lfsrAfter, List.countP_map]
    _ = 512 := output_ones htaps

/-! ### The obligations -/

/-- Settles O25: 1023 shifts from the start lead back to it, and so do 1023 from anywhere. -/
theorem lfsrHasPeriod1023 : Obligations.LfsrHasPeriod1023 := lfsrAfter_add_1023

/-- Settles O23: the table, by computing its 320 chips. -/
theorem firstTenChipsTable : Obligations.FirstTenChipsTable := by
  unfold Obligations.FirstTenChipsTable
  decide +kernel

/-- Settles O24: every pair of taps gives 512 ones in a period, and the other chips are zeros. -/
theorem codesAreBalanced : Obligations.CodesAreBalanced := by
  intro sv hsv
  have hones := ca_ones hsv
  have hall := List.length_eq_countP_add_countP (fun i => ca sv i) (l := List.range 1023)
  simp only [List.length_range, Bool.not_eq_true, Bool.decide_eq_false] at hall
  exact ⟨hones, by omega⟩

/-- Settles O26: chip `i` covers the samples from `⌈i·N/1023⌉` on, at least two of them since `N ≥ 2·1023`. -/
theorem resamplingKeepsEveryChip : Obligations.ResamplingKeepsEveryChip := by
  intro sv n hn
  have hpos : 0 < n := by omega
  have hchip : ∀ k i, i * n ≤ k * 1023 → k * 1023 < (i + 1) * n → k * 1023 / n = i := fun k i hlow hhigh =>
    Nat.div_eq_of_lt_le hlow hhigh
  refine ⟨fun k hk => ⟨k * 1023 / n, ?_, Nat.div_mul_le_self _ _, ?_, rfl⟩, fun i hi => ?_⟩
  · rw [Nat.div_lt_iff_lt_mul hpos]; omega
  · exact Nat.lt_mul_of_div_lt (Nat.lt_succ_self _) hpos
  · have hfirst : i * n ≤ (i * n + 1022) / 1023 * 1023 ∧ (i * n + 1022) / 1023 * 1023 ≤ i * n + 1022 := by omega
    have hstep : (i + 1) * n = i * n + n := Nat.succ_mul i n
    have hlast : (i + 1) * n ≤ 1023 * n := Nat.mul_le_mul_right n hi
    have h1 := hchip ((i * n + 1022) / 1023) i hfirst.1 (by omega)
    have h2 := hchip ((i * n + 1022) / 1023 + 1) i (by omega) (by omega)
    exact ⟨(i * n + 1022) / 1023, by omega, congrArg (prn sv) h1, congrArg (prn sv) h2, h1, h2⟩

end Sys2Proof.Machine

/-! PROOFS. The search: the powers of a window (41_acquire.md R116 to R118), the peak and the decision (R119 to
R121). -/

namespace Sys2Proof.Machine

/-! ### The array -/

/-- A list computed entry by entry has a result where every entry has. -/
theorem mapM_eq_some_iff {α β : Type} {f : α → Option β} {l : List α} {r : List β} :
    l.mapM f = some r ↔ l.map f = r.map some := by
  induction l generalizing r with
  | nil => cases r <;> simp
  | cons a l ih =>
    simp only [List.mapM_cons, Option.bind_eq_bind, Option.bind_eq_some_iff, Option.pure_def, Option.some.injEq, ih,
      List.map_cons]
    constructor
    · rintro ⟨b, hb, bs, hbs, rfl⟩
      rw [hb, hbs, List.map_cons]
    · intro h
      cases r with
      | nil => cases h
      | cons b bs =>
        obtain ⟨hb, hbs⟩ := List.cons.inj h
        exact ⟨b, hb, bs, hbs, rfl⟩

/-- The same over the numbers below `n`. -/
theorem mapM_range_eq_some {β : Type} {f : Nat → Option β} {n : Nat} {r : List β} (h : (List.range n).mapM f = some r) :
    r.length = n ∧ ∀ i < n, ∃ v, r[i]? = some v ∧ f i = some v := by
  have hmap := mapM_eq_some_iff.mp h
  have hlength : r.length = n := by simpa using (congrArg List.length hmap).symm
  refine ⟨hlength, fun i hi => ⟨r[i], List.getElem?_eq_getElem (hlength ▸ hi), ?_⟩⟩
  simpa [hi, hlength] using congrArg (fun l => l[i]?) hmap

/-- A computation that answers `g` for every number below `n` answers their list. -/
theorem mapM_range_of_forall {β : Type} {f : Nat → Option β} {g : Nat → β} {n : Nat} (h : ∀ i < n, f i = some (g i)) :
    (List.range n).mapM f = some ((List.range n).map g) := by
  rw [mapM_eq_some_iff, List.map_map]
  exact List.map_congr_left fun i hi => h i (List.mem_range.mp hi)

/-- A row of an array is the list of the powers of its bin. -/
theorem powerGrid_row {nm : Numerics} {w : Win} {code : Nat → Int} {range step : Nat} {p : List (List Scalar)}
    (h : powerGrid nm w code range step = some p) {b : Nat} (hb : b < binCount range step) :
    ∃ row, p[b]? = some row ∧
      (List.range w.n).mapM (fun m => power nm w code (binFreq range step b) m) = some row :=
  (mapM_range_eq_some h).2 b hb

/-! ### The places of an array -/

/-- Reading order: bin ascending, then code phase ascending (41_acquire.md R119). -/
def Cell.Before (a b : Cell) : Prop := a.bin < b.bin ∨ (a.bin = b.bin ∧ a.phase < b.phase)

theorem Cell.Before.asymm {a b : Cell} (h : a.Before b) : ¬ b.Before a := by
  unfold Cell.Before at *; omega

theorem mem_gridCells {p : List (List Scalar)} {c : Cell} :
    c ∈ gridCells p ↔ gridEntry p c.bin c.phase = some c.val := by
  simp only [gridCells, List.mem_flatMap, List.mem_map, gridEntry, Option.bind_eq_some_iff, Prod.exists,
    List.mem_zipIdx_iff_getElem?]
  constructor
  · rintro ⟨row, b, hrow, v, m, hv, rfl⟩
    exact ⟨row, hrow, hv⟩
  · rintro ⟨row, hrow, hv⟩
    exact ⟨row, c.bin, hrow, c.val, c.phase, hv, rfl⟩

theorem zipIdx_pairwise_lt {α : Type} (l : List α) : l.zipIdx.Pairwise fun a b => a.2 < b.2 := by
  rw [← List.pairwise_map, List.zipIdx_map_snd]
  exact List.pairwise_lt_range'

/-- The entries are listed in reading order. -/
theorem gridCells_pairwise (p : List (List Scalar)) : (gridCells p).Pairwise Cell.Before := by
  rw [gridCells, List.pairwise_flatMap]
  refine ⟨fun row _ => ?_, (zipIdx_pairwise_lt p).imp fun hlt => ?_⟩
  · rw [List.pairwise_map]
    exact (zipIdx_pairwise_lt row.1).imp fun hlt => .inr ⟨rfl, hlt⟩
  · intro a ha b hb
    obtain ⟨-, -, rfl⟩ := List.mem_map.mp ha
    obtain ⟨-, -, rfl⟩ := List.mem_map.mp hb
    exact .inl hlt

/-! ### The first maximum -/

/-- Running over the entries from a first one: it stays the best, or the first greater than all before it does. -/
theorem foldl_better (cs : List Cell) (c : Cell) :
    (cs.foldl Cell.better c = c ∧ ∀ x ∈ cs, x.val ≤ c.val) ∨
    ∃ pre post, cs = pre ++ cs.foldl Cell.better c :: post ∧ c.val < (cs.foldl Cell.better c).val ∧
      (∀ x ∈ pre, x.val < (cs.foldl Cell.better c).val) ∧ ∀ x ∈ post, x.val ≤ (cs.foldl Cell.better c).val := by
  induction cs generalizing c with
  | nil => exact .inl ⟨rfl, nofun⟩
  | cons y cs ih =>
    rw [List.foldl_cons]
    by_cases hlt : c.val < y.val
    · have hbetter : c.better y = y := if_pos hlt
      rw [hbetter]
      rcases ih y with ⟨hstay, hle⟩ | ⟨pre, post, hsplit, hgt, hpre, hpost⟩
      · exact .inr ⟨[], cs, by rw [hstay, List.nil_append], hstay.symm ▸ hlt, nofun, hstay.symm ▸ hle⟩
      · refine .inr ⟨y :: pre, post, congrArg (y :: ·) hsplit, hlt.trans hgt, fun x hx => ?_, hpost⟩
        exact (List.mem_cons.mp hx).elim (fun e => e ▸ hgt) (hpre x)
    · have hbetter : c.better y = c := if_neg hlt
      rw [hbetter]
      rcases ih c with ⟨hstay, hle⟩ | ⟨pre, post, hsplit, hgt, hpre, hpost⟩
      · refine .inl ⟨hstay, fun x hx => ?_⟩
        exact (List.mem_cons.mp hx).elim (fun e => e ▸ not_lt.mp hlt) (hle x)
      · refine .inr ⟨y :: pre, post, congrArg (y :: ·) hsplit, hgt, fun x hx => ?_, hpost⟩
        exact (List.mem_cons.mp hx).elim (fun e => e ▸ (not_lt.mp hlt).trans_lt hgt) (hpre x)

/-- The first maximum: every entry before it is smaller, none after it is greater. -/
theorem firstMax_eq_some {cells : List Cell} {best : Cell} (h : firstMax cells = some best) :
    ∃ pre post, cells = pre ++ best :: post ∧ (∀ x ∈ pre, x.val < best.val) ∧ ∀ x ∈ post, x.val ≤ best.val := by
  cases cells with
  | nil => cases h
  | cons c cs =>
    obtain rfl := Option.some.inj h
    rcases foldl_better cs c with ⟨hstay, hle⟩ | ⟨pre, post, hsplit, hgt, hpre, hpost⟩
    · rw [hstay]
      exact ⟨[], cs, rfl, nofun, hle⟩
    · refine ⟨c :: pre, post, congrArg (c :: ·) hsplit, fun x hx => ?_, hpost⟩
      exact (List.mem_cons.mp hx).elim (fun e => e ▸ hgt) (hpre x)

theorem firstMax_mem {cells : List Cell} {best : Cell} (h : firstMax cells = some best) : best ∈ cells := by
  obtain ⟨pre, post, rfl, -, -⟩ := firstMax_eq_some h
  simp

theorem firstMax_le {cells : List Cell} {best : Cell} (h : firstMax cells = some best) :
    ∀ x ∈ cells, x.val ≤ best.val := by
  obtain ⟨pre, post, rfl, hpre, hpost⟩ := firstMax_eq_some h
  intro x hx
  rcases List.mem_append.mp hx with hx | hx
  · exact (hpre x hx).le
  · exact (List.mem_cons.mp hx).elim (fun e => e ▸ le_refl _) (hpost x)

/-- Entries in reading order: one before the first maximum is smaller. -/
theorem firstMax_lt_of_before {cells : List Cell} (hsorted : cells.Pairwise Cell.Before) {best : Cell}
    (h : firstMax cells = some best) : ∀ x ∈ cells, x.Before best → x.val < best.val := by
  obtain ⟨pre, post, rfl, hpre, -⟩ := firstMax_eq_some h
  intro x hx hbefore
  rcases List.mem_append.mp hx with hx | hx
  · exact hpre x hx
  · have hafter := (List.pairwise_cons.mp (List.pairwise_append.mp hsorted).2.1).1
    rcases List.mem_cons.mp hx with rfl | hx
    · exact absurd hbefore hbefore.asymm
    · exact absurd hbefore (hafter x hx).asymm

/-- An entry that no later one exceeds is the first maximum of the list it heads. -/
theorem firstMax_cons_of_le {c : Cell} {cs : List Cell} (h : ∀ x ∈ cs, x.val ≤ c.val) :
    firstMax (c :: cs) = some c := by
  rcases foldl_better cs c with ⟨hstay, -⟩ | ⟨pre, post, hsplit, hgt, -, -⟩
  · exact congrArg some hstay
  · exact absurd hgt (not_lt.mpr (h _ (List.mem_iff_append.mpr ⟨pre, post, hsplit⟩)))

/-! ### The second peak and the decision -/

theorem mem_otherBins {cells : List Cell} {bin : Nat} {c : Cell} :
    c ∈ cells.filter (fun c => decide (c.bin ≠ bin)) ↔ c ∈ cells ∧ c.bin ≠ bin := by
  simp

/-- The second peak: the greatest entry of the other bins, or 0 where there is no other bin. -/
theorem secondPeak_cases (cells : List Cell) (bin : Nat) :
    (∃ c ∈ cells, c.bin ≠ bin ∧ secondPeak cells bin = c.val ∧ ∀ x ∈ cells, x.bin ≠ bin → x.val ≤ c.val) ∨
    ((∀ x ∈ cells, x.bin = bin) ∧ secondPeak cells bin = 0) := by
  unfold secondPeak
  split
  · next c hmax =>
    obtain ⟨hmem, hbin⟩ := mem_otherBins.mp (firstMax_mem hmax)
    exact .inl ⟨c, hmem, hbin, rfl, fun x hx hxbin => firstMax_le hmax x (mem_otherBins.mpr ⟨hx, hxbin⟩)⟩
  · next hmax =>
    refine .inr ⟨fun x hx => ?_, rfl⟩
    by_contra hxbin
    have hx' := mem_otherBins.mpr ⟨hx, hxbin⟩
    cases hcells : cells.filter fun c => decide (c.bin ≠ bin) with
    | nil => rw [hcells] at hx'; cases hx'
    | cons c cs => rw [hcells] at hmax; cases hmax

theorem snrDb_of_pos {nm : Numerics} {peak second : Scalar} {snr : Option Scalar} (hs : 0 < second) (hp : 0 < peak)
    (h : snrDb nm peak second = some snr) : snr = some (10 * nm.log10 (peak / second)) := by
  simp only [snrDb, hs, hp, and_self, ↓reduceIte, Option.bind_eq_bind, Option.bind_eq_some_iff, Option.pure_def,
    Option.some.injEq] at h
  obtain ⟨ratio, hratio, l, hl, d, hd, rfl⟩ := h
  obtain ⟨-, -, rfl⟩ := nDiv_eq_some.mp hratio
  obtain ⟨-, rfl⟩ := nLog10_eq_some.mp hl
  obtain ⟨-, rfl⟩ := nMul_eq_some.mp hd
  rfl

theorem snrDb_of_zero (nm : Numerics) {peak second : Scalar} (h : second = 0 ∨ peak = 0) :
    snrDb nm peak second = some none := by
  refine if_neg ?_
  rintro ⟨hs, hp⟩
  rcases h with h | h
  · exact hs.ne' h
  · exact hp.ne' h

/-- A search over an array with a result: the first maximum, the second peak, the strict decision, the ratio. -/
theorem decideSearch_eq_some {nm : Numerics} {thr : Scalar} {p : List (List Scalar)} {o : SearchResult}
    (h : decideSearch nm thr p = some o) :
    firstMax (gridCells p) = some o.cell ∧ o.second = secondPeak (gridCells p) o.cell.bin ∧
      o.ok = decide (thr * o.second < o.cell.val) ∧ snrDb nm o.cell.val o.second = some o.snr := by
  simp only [decideSearch, Option.bind_eq_bind, Option.bind_eq_some_iff, Option.pure_def, Option.some.injEq] at h
  obtain ⟨best, hbest, bound, hbound, snr, hsnr, rfl⟩ := h
  obtain ⟨-, rfl⟩ := nMul_eq_some.mp hbound
  exact ⟨hbest, rfl, rfl, hsnr⟩

/-! ### Numerics without exceptions -/

/-- The samples a correlation reads are those of its block. -/
theorem block_position_lt {n k blocks i m : Nat} (hk : k < blocks) (hi : i < n) : k * n + (i + m) % n < blocks * n :=
  calc k * n + (i + m) % n
    _ < k * n + n := Nat.add_lt_add_left (Nat.mod_lt _ (Nat.zero_lt_of_lt hi)) _
    _ = (k + 1) * n := (Nat.succ_mul k n).symm
    _ ≤ blocks * n := Nat.mul_le_mul_right n hk

section
variable {nm : Numerics} (h : unboundedNumerics nm)
include h

theorem chk_of_unbounded (x : Scalar) : chk nm x = some x := if_pos (h x)

theorem nDiv_of_unbounded {a b : Scalar} (hb : b ≠ 0) : nDiv nm a b = some (a / b) :=
  (if_neg hb).trans (chk_of_unbounded h _)

theorem cis_of_unbounded (t : Scalar) : cis nm t = some { re := nm.cos2pi t, im := nm.sin2pi t } := by
  simp [cis, chk_of_unbounded h]

theorem cAdd_of_unbounded (a b : Cplx) : cAdd nm a b = some { re := a.re + b.re, im := a.im + b.im } := by
  simp [cAdd, nAdd, chk_of_unbounded h]

theorem cMul_of_unbounded (a b : Cplx) :
    cMul nm a b = some { re := a.re * b.re - a.im * b.im, im := a.re * b.im + a.im * b.re } := by
  simp [cMul, nMul, nAdd, nSub, chk_of_unbounded h]

theorem cChip_of_unbounded (a : Cplx) (chip : Int) :
    cChip nm a chip = some { re := a.re * chip, im := a.im * chip } := by
  simp [cChip, nMul, chk_of_unbounded h]

theorem normSq_of_unbounded (z : Cplx) : normSq nm z = some (z.re ^ 2 + z.im ^ 2) := by
  simp [normSq, nMul, nAdd, chk_of_unbounded h, pow_two]

theorem nSum_of_unbounded {f : Nat → Option Scalar} {g : Nat → Scalar} {n : Nat} (hf : ∀ i < n, f i = some (g i)) :
    nSum nm f n = some (∑ i ∈ Finset.range n, g i) := by
  induction n with
  | zero => rfl
  | succ n ih =>
    rw [nSum, ih fun i hi => hf i (hi.trans n.lt_succ_self), hf n n.lt_succ_self, Finset.sum_range_succ]
    exact chk_of_unbounded h _

theorem cSum_of_unbounded {f : Nat → Option Cplx} {g : Nat → Cplx} {n : Nat} (hf : ∀ i < n, f i = some (g i)) :
    cSum nm f n = some { re := ∑ i ∈ Finset.range n, (g i).re, im := ∑ i ∈ Finset.range n, (g i).im } := by
  induction n with
  | zero => rfl
  | succ n ih =>
    rw [cSum, ih fun i hi => hf i (hi.trans n.lt_succ_self), hf n n.lt_succ_self]
    simp only [Finset.sum_range_succ]
    exact cAdd_of_unbounded h _ _

/-! ### Powers over numerics without exceptions -/

/-- A sample mixed with a bin's carrier (41_acquire.md R116). -/
theorem mixed_of_unbounded {w : Win} (hfs : w.fs ≠ 0) (f : Int) (p : Nat) :
    mixed nm w f p = some
      { re := (w.sampleAt p).re * nm.cos2pi (-((f : Rat) * p) / w.fs) -
          (w.sampleAt p).im * nm.sin2pi (-((f : Rat) * p) / w.fs)
        im := (w.sampleAt p).re * nm.sin2pi (-((f : Rat) * p) / w.fs) +
          (w.sampleAt p).im * nm.cos2pi (-((f : Rat) * p) / w.fs) } := by
  have hfs' : (w.fs : Rat) ≠ 0 := Nat.cast_ne_zero.mpr hfs
  simp [mixed, nDiv_of_unbounded h hfs', cis_of_unbounded h, cMul_of_unbounded h]

/-- A complex value turned and stretched by `a`. -/
def rotate (a z : Cplx) : Cplx := { re := a.re * z.re - a.im * z.im, im := a.re * z.im + a.im * z.re }

/-- Turning every term turns the sum. -/
theorem cSum_rotate (a : Cplx) {f f' : Nat → Option Cplx} {n : Nat} (hf : ∀ i < n, f' i = (f i).map (rotate a)) :
    cSum nm f' n = (cSum nm f n).map (rotate a) := by
  induction n with
  | zero => simp [cSum, rotate]
  | succ n ih =>
    rw [cSum, cSum, ih fun i hi => hf i (hi.trans n.lt_succ_self), hf n n.lt_succ_self]
    cases cSum nm f n with
    | none => rfl
    | some acc =>
      cases f n with
      | none => rfl
      | some y =>
        simp only [Option.map_some, Option.bind_eq_bind, Option.bind_some, cAdd_of_unbounded h, rotate]
        congr 2 <;> ring

/-- Turning every correlation multiplies the power by the squared modulus. -/
theorem power_of_rotated (a : Cplx) {w w' : Win} {code code' : Nat → Int} {f : Int} {m : Nat} (hk : w'.k = w.k)
    (hcorr : ∀ k < w.k, correlation nm w' code' f k m = (correlation nm w code f k m).map (rotate a)) :
    power nm w' code' f m = (power nm w code f m).map ((a.re ^ 2 + a.im ^ 2) * ·) := by
  unfold power
  rw [hk]
  generalize w.k = blocks at hcorr ⊢
  induction blocks with
  | zero => simp [nSum]
  | succ k ih =>
    rw [nSum, nSum, ih fun i hi => hcorr i (hi.trans k.lt_succ_self), hcorr k k.lt_succ_self]
    cases nSum nm _ k with
    | none => rfl
    | some acc =>
      cases correlation nm w code f k m with
      | none => rfl
      | some r =>
        simp only [Option.map_some, Option.bind_eq_bind, Option.bind_some, normSq_of_unbounded h, nAdd,
          chk_of_unbounded h, rotate]
        congr 1; ring

/-- The negated code turns a correlation by a half turn. -/
theorem correlation_neg (w : Win) (code : Nat → Int) (f : Int) (k m : Nat) :
    correlation nm w (fun n => -code n) f k m = (correlation nm w code f k m).map (rotate { re := -1, im := 0 }) := by
  refine cSum_rotate h _ fun i _ => ?_
  cases mixed nm w f (k * w.n + (i + m) % w.n) with
  | none => rfl
  | some x => simp [cChip_of_unbounded h, rotate]

/-- A window turned by `a` sample by sample turns every mixed sample. -/
theorem mixed_rotated {w w' : Win} {a : Cplx} (hfs : w'.fs = w.fs) {p : Nat}
    (hsample : w'.sampleAt p = rotate a (w.sampleAt p)) (f : Int) :
    mixed nm w' f p = (mixed nm w f p).map (rotate a) := by
  simp only [mixed, hfs, hsample]
  cases nDiv nm (-(f * (p : Int)) : Int) (w.fs : Scalar) with
  | none => rfl
  | some t =>
    simp only [Option.bind_eq_bind, Option.bind_some, cis_of_unbounded h, cMul_of_unbounded h, Option.map_some, rotate]
    congr 2 <;> ring

theorem correlation_rotated {w w' : Win} {a : Cplx} (hfs : w'.fs = w.fs) (hn : w'.n = w.n)
    (hsample : ∀ p < w.k * w.n, w'.sampleAt p = rotate a (w.sampleAt p)) (code : Nat → Int) (f : Int) {k : Nat}
    (hk : k < w.k) (m : Nat) :
    correlation nm w' code f k m = (correlation nm w code f k m).map (rotate a) := by
  unfold correlation
  rw [hn]
  refine cSum_rotate h _ fun i hi => ?_
  rw [mixed_rotated h hfs (hsample _ (block_position_lt hk hi)) f]
  cases mixed nm w f (k * w.n + (i + m) % w.n) with
  | none => rfl
  | some x =>
    simp only [Option.map_some, Option.bind_eq_bind, Option.bind_some, cChip_of_unbounded h, rotate]
    congr 2 <;> ring

end

/-! ### A window of zeros -/

/-- A power over a window of zeros is 0. -/
theorem power_of_zeros {nm : Numerics} (h : unboundedNumerics nm) {w : Win} (hfs : w.fs ≠ 0)
    (hzero : ∀ p < w.k * w.n, w.sampleAt p = { re := 0, im := 0 }) (code : Nat → Int) (f : Int) (m : Nat) :
    power nm w code f m = some 0 := by
  have hcorr : ∀ k < w.k, correlation nm w code f k m = some { re := 0, im := 0 } := by
    intro k hk
    have hterm : ∀ i < w.n, (do
        let x ← mixed nm w f (k * w.n + (i + m) % w.n)
        cChip nm x (code i)) = some { re := 0, im := 0 } := by
      intro i hi
      simp [mixed_of_unbounded h hfs, hzero _ (block_position_lt hk hi), cChip_of_unbounded h]
    rw [correlation, cSum_of_unbounded h hterm]
    simp
  have hterm : ∀ k < w.k, (do
      let r ← correlation nm w code f k m
      normSq nm r) = some 0 := by
    intro k hk
    simp [hcorr k hk, normSq_of_unbounded h]
  rw [power, nSum_of_unbounded h hterm]
  simp

/-- An array of zeros with an entry has its peak 0 at bin 0, phase 0, and no ratio to report. -/
theorem decideSearch_of_zeros {nm : Numerics} (h : unboundedNumerics nm) (thr : Scalar) {p : List (List Scalar)}
    (hfirst : gridEntry p 0 0 = some 0) (hzero : ∀ b m v, gridEntry p b m = some v → v = 0) :
    decideSearch nm thr p =
      some { cell := { bin := 0, phase := 0, val := 0 }, second := 0, ok := false, snr := none } := by
  have hcells : ∀ c ∈ gridCells p, c.val = 0 := fun c hc => hzero _ _ _ (mem_gridCells.mp hc)
  have hmem : ({ bin := 0, phase := 0, val := 0 } : Cell) ∈ gridCells p := mem_gridCells.mpr hfirst
  have hmax : firstMax (gridCells p) = some { bin := 0, phase := 0, val := 0 } := by
    have hsorted := gridCells_pairwise p
    cases hlist : gridCells p with
    | nil => rw [hlist] at hmem; cases hmem
    | cons c cs =>
      rw [hlist] at hmem hsorted hcells
      have hhead : c = { bin := 0, phase := 0, val := 0 } := by
        rcases List.mem_cons.mp hmem with he | hmem
        · exact he.symm
        · have hbefore := (List.pairwise_cons.mp hsorted).1 _ hmem
          simp [Cell.Before] at hbefore
      subst hhead
      exact firstMax_cons_of_le fun x hx => (hcells x (List.mem_cons_of_mem _ hx)).le
  have hsecond : secondPeak (gridCells p) 0 = 0 := by
    rcases secondPeak_cases (gridCells p) 0 with ⟨c, hc, -, hval, -⟩ | ⟨-, hval⟩
    · exact hval.trans (hcells c hc)
    · exact hval
  simp only [decideSearch, hmax, Option.bind_eq_bind, Option.bind_some, hsecond, nMul, chk_of_unbounded h,
    snrDb_of_zero nm (.inl rfl), mul_zero, lt_irrefl, decide_false, Option.pure_def]

/-! ### The obligations -/

/-- Settles O29: the array is computed row by row, each entry by entry. -/
theorem powerGridHoldsEveryPower : Obligations.PowerGridHoldsEveryPower := by
  intro nm w code range step p h
  have hlength : p.length = binCount range step := (mapM_range_eq_some h).1
  refine ⟨hlength, fun row hrow => ?_, fun b m hb hm => ?_⟩
  · obtain ⟨b, hb, rfl⟩ := List.mem_iff_getElem.mp hrow
    obtain ⟨row, hget, hpowers⟩ := powerGrid_row h (hlength ▸ hb)
    rw [List.getElem?_eq_getElem hb] at hget
    rw [Option.some.inj hget]
    exact (mapM_range_eq_some hpowers).1
  · obtain ⟨row, hget, hpowers⟩ := powerGrid_row h hb
    obtain ⟨v, hv, hpower⟩ := (mapM_range_eq_some hpowers).2 m hm
    exact ⟨v, by rw [gridEntry, hget]; exact hv, hpower⟩

/-- Settles O30: the sums and products are the exact ones, term by term. -/
theorem powerIsSumOfSquaredCorrelations : Obligations.PowerIsSumOfSquaredCorrelations := by
  intro nm w code f m h hfs ph re im
  have hcorr : ∀ k, correlation nm w code f k m = some
      { re := ∑ n ∈ Finset.range w.n, re k n * code n, im := ∑ n ∈ Finset.range w.n, im k n * code n } := by
    intro k
    refine cSum_of_unbounded h (g := fun n => { re := re k n * code n, im := im k n * code n }) fun n _ => ?_
    simp [mixed_of_unbounded h hfs, cChip_of_unbounded h, re, im, ph]
  refine nSum_of_unbounded h fun k _ => ?_
  rw [hcorr]
  exact normSq_of_unbounded h _

/-- Settles O31: both changes turn every correlation by one factor. -/
theorem powerInvariances : Obligations.PowerInvariances := by
  intro nm w code f m h
  refine ⟨?_, fun w' a hfs hn hk hsample v hv => ?_⟩
  · rw [power_of_rotated h _ rfl fun k _ => correlation_neg h w code f k m]
    cases power nm w code f m <;> simp
  · have hrotated : ∀ p < w.k * w.n, w'.sampleAt p = rotate a (w.sampleAt p) := by
      intro p hp
      obtain ⟨hre, him⟩ := hsample p hp
      exact congrArg₂ Cplx.mk hre him
    rw [power_of_rotated h a hk fun k hlt => correlation_rotated h hfs hn hrotated code f hlt m, hv]
    rfl

/-- Settles O32: the first maximum of the entries in reading order. -/
theorem peakIsFirstMaximum : Obligations.PeakIsFirstMaximum := by
  intro nm thr p o h
  obtain ⟨hmax, -⟩ := decideSearch_eq_some h
  refine ⟨mem_gridCells.mp (firstMax_mem hmax), fun b m v hv => ?_⟩
  have hmem : ({ bin := b, phase := m, val := v } : Cell) ∈ gridCells p := mem_gridCells.mpr hv
  exact ⟨firstMax_le hmax _ hmem, firstMax_lt_of_before (gridCells_pairwise p) hmax _ hmem⟩

/-- Settles O33: the first maximum of the other bins, the strict comparison, and the ratio's guard. -/
theorem secondPeakAndDecision : Obligations.SecondPeakAndDecision := by
  intro nm thr p o h
  obtain ⟨-, hsecond, hok, hsnr⟩ := decideSearch_eq_some h
  have hmem : ∀ {b m v}, gridEntry p b m = some v → ({ bin := b, phase := m, val := v } : Cell) ∈ gridCells p :=
    fun hv => mem_gridCells.mpr hv
  refine ⟨fun b m v hb hv => ?greatest, ?attained, by rw [hok, decide_eq_true_iff],
    fun hs hp => snrDb_of_pos hs hp hsnr, fun hzero => ?undefined⟩
  case greatest =>
    rcases secondPeak_cases (gridCells p) o.cell.bin with ⟨c, -, -, hval, hle⟩ | ⟨hall, -⟩
    · rw [hsecond, hval]; exact hle _ (hmem hv) hb
    · exact absurd (hall _ (hmem hv)) hb
  case attained =>
    rcases secondPeak_cases (gridCells p) o.cell.bin with ⟨c, hc, hb, hval, -⟩ | ⟨hall, hval⟩
    · exact .inl ⟨c.bin, c.phase, hb, by rw [hsecond, hval]; exact mem_gridCells.mp hc⟩
    · exact .inr ⟨fun b m v hv => hall _ (hmem hv), hsecond.trans hval⟩
  case undefined =>
    rw [snrDb_of_zero nm hzero] at hsnr
    exact (Option.some.inj hsnr).symm

/-- Settles O34: every power of a window of zeros is 0. -/
theorem zeroWindowSearchFails : Obligations.ZeroWindowSearchFails := by
  intro nm w a h hn hfs hzero
  have hrow : ∀ b < binCount a.range a.step,
      (List.range w.n).mapM (fun m => power nm w (prnResampled a.sv w.n) (binFreq a.range a.step b) m) =
        some ((List.range w.n).map fun _ => 0) := fun b _ =>
    mapM_range_of_forall fun m _ => power_of_zeros h hfs.ne' hzero _ _ m
  have hgrid : powerGrid nm w (prnResampled a.sv w.n) a.range a.step =
      some ((List.range (binCount a.range a.step)).map fun _ => (List.range w.n).map fun _ => (0 : Scalar)) :=
    mapM_range_of_forall hrow
  have hbins : 0 < binCount a.range a.step := Nat.succ_pos _
  rw [search, hgrid]
  refine decideSearch_of_zeros h a.thr ?_ fun b m v hv => ?_
  · simp [gridEntry, hbins, hn]
  · simp only [gridEntry, List.getElem?_map, Option.bind_map, Option.bind_eq_some_iff, Function.comp_apply,
      Option.map_eq_some_iff] at hv
    obtain ⟨-, -, -, -, rfl⟩ := hv
    rfl

end Sys2Proof.Machine

/-! PROOFS. The engine's turn: `AcqFinish` (41_acquire.md R114, R122). -/

namespace Sys2Proof.Machine

/-! ### The three outcomes -/

section
variable {nm : Numerics} {s : State}

theorem acqFinish_of_idle (hb : s.acq.busy = false) : acqFinish nm s = s := by
  simp [acqFinish, acqFinishEnabled, hb]

variable (hb : s.acq.busy = true) (hf : s.fault.set = false)
include hb hf

theorem acqFinish_of_some {o : SearchResult} (ho : search nm s.win s.acq = some o) :
    acqFinish nm s = finishSearch o s := by
  simp [acqFinish, acqFinishEnabled, hb, hf, ho]

theorem acqFinish_of_none (ho : search nm s.win s.acq = none) : acqFinish nm s = failSearch s := by
  simp [acqFinish, acqFinishEnabled, hb, hf, ho]

end

/-! ### What a search reads -/

/-- A search reads the window and the operand latches only. -/
theorem search_congr (nm : Numerics) (w : Win) {a a' : Acq} (hsv : a.sv = a'.sv) (hrange : a.range = a'.range)
    (hstep : a.step = a'.step) (hthr : a.thr = a'.thr) : search nm w a = search nm w a' := by
  simp only [search, hsv, hrange, hstep, hthr]

/-- What a finished search leaves in the engine depends on the operand latches, not on the earlier results. -/
theorem Acq.finish_congr {a a' : Acq} (hsv : a.sv = a'.sv) (hrange : a.range = a'.range) (hstep : a.step = a'.step)
    (hthr : a.thr = a'.thr) (start : Index) (o : SearchResult) : a.finish start o = a'.finish start o := by
  simp only [Acq.finish, hsv, hrange, hstep, hthr]

/-- Two states with the same window and operand latches. -/
structure SameOperands (s t : State) : Prop where
  win : s.win = t.win
  busy : s.acq.busy = t.acq.busy
  sv : s.acq.sv = t.acq.sv
  range : s.acq.range = t.acq.range
  step : s.acq.step = t.acq.step
  thr : s.acq.thr = t.acq.thr

section
variable {s t : State} (h : SameOperands s t)
include h

theorem SameOperands.search (nm : Numerics) : search nm s.win s.acq = search nm t.win t.acq := by
  rw [h.win]
  exact search_congr nm t.win h.sv h.range h.step h.thr

/-- But for the ratio that is not defined, the reports are the same. -/
theorem SameOperands.searchReport (o : SearchResult) :
    { searchReport s o with peakSnrDb := 0 } = { searchReport t o with peakSnrDb := 0 } := by
  simp only [Machine.searchReport, h.win, h.sv, h.range, h.step]

theorem SameOperands.searchEvent (o : SearchResult) : searchEvent s o = searchEvent t o := by
  simp only [Machine.searchEvent, h.win, h.sv]

end

/-- What two turns of the engine report: the same reports but for an undefined ratio, the same events and latch, and
after a search with a result the same engine. -/
def ReportAlike (nm : Numerics) (s t : State) : Prop :=
  ∃ rs rs' es,
    (acqFinish nm s).reports = s.reports ++ rs ∧ (acqFinish nm t).reports = t.reports ++ rs' ∧
    rs.map (fun r => { r with peakSnrDb := 0 }) = rs'.map (fun r => { r with peakSnrDb := 0 }) ∧
    (acqFinish nm s).events = s.events ++ es ∧ (acqFinish nm t).events = t.events ++ es ∧
    (acqFinish nm s).fault = (acqFinish nm t).fault ∧
    (s.acq.busy = true → (acqFinish nm s).fault.set = false → (acqFinish nm s).acq = (acqFinish nm t).acq)

/-- A turn that is not enabled reports nothing. -/
theorem reportAlike_of_disabled {nm : Numerics} {s t : State} (hs : acqFinish nm s = s) (ht : acqFinish nm t = t)
    (hfault : s.fault = t.fault) (hdisabled : s.acq.busy = true → s.fault.set = true) : ReportAlike nm s t := by
  refine ⟨[], [], [], ?_⟩
  rw [hs, ht]
  refine ⟨(List.append_nil _).symm, (List.append_nil _).symm, rfl, (List.append_nil _).symm, (List.append_nil _).symm,
    hfault, fun hb hf => ?_⟩
  rw [hdisabled hb] at hf
  cases hf

theorem reportAlike_of_sameOperands {nm : Numerics} {s t : State} (h : SameOperands s t) (hfault : s.fault = t.fault) :
    ReportAlike nm s t := by
  cases hb : s.acq.busy with
  | false =>
    exact reportAlike_of_disabled (acqFinish_of_idle hb) (acqFinish_of_idle (h.busy ▸ hb)) hfault
      fun hb' => absurd (hb.symm.trans hb') (by decide)
  | true =>
    cases hf : s.fault.set with
    | true =>
      exact reportAlike_of_disabled (acqFinish_of_fault hf nm) (acqFinish_of_fault (hfault ▸ hf) nm) hfault fun _ => hf
    | false =>
      have hb' : t.acq.busy = true := h.busy ▸ hb
      have hf' : t.fault.set = false := hfault ▸ hf
      cases ho : search nm s.win s.acq with
      | some o =>
        have ho' := (h.search nm).symm.trans ho
        refine ⟨[searchReport s o], [searchReport t o], [searchEvent s o], ?_⟩
        rw [acqFinish_of_some hb hf ho, acqFinish_of_some hb' hf' ho']
        refine ⟨rfl, rfl, congrArg (fun r => [r]) (h.searchReport o), rfl, ?_, hfault, fun _ _ => ?_⟩
        · rw [h.searchEvent]; rfl
        · rw [finishSearch_acq, finishSearch_acq, h.win]
          exact Acq.finish_congr h.sv h.range h.step h.thr _ _
      | none =>
        have ho' := (h.search nm).symm.trans ho
        refine ⟨[], [], [faultEvent .internalInvariant s.acq.sv .acquirer s.win.start], ?_⟩
        rw [acqFinish_of_none hb hf ho, acqFinish_of_none hb' hf' ho']
        refine ⟨(List.append_nil _).symm, (List.append_nil _).symm, rfl, rfl, ?_, ?_, fun _ hclear => ?_⟩
        · rw [failSearch_events, h.sv, h.win]
        · rw [failSearch_fault, failSearch_fault, hfault]
        · rw [failSearch_fault, FaultLatch.raise_set] at hclear
          cases hclear

/-- The engine's turn touches the engine, the latch, two traces and the count of free values. -/
theorem acqFinish_frame (nm : Numerics) (s : State) :
    acqFinish nm s = { s with
      acq := (acqFinish nm s).acq, fault := (acqFinish nm s).fault, reports := (acqFinish nm s).reports
      events := (acqFinish nm s).events, freeCount := (acqFinish nm s).freeCount } := by
  unfold acqFinish
  split
  · split <;> rfl
  · rfl

/-! ### The obligations -/

/-- Settles O35: the three outcomes of the engine's turn. -/
theorem acqFinishReportsResult : Obligations.AcqFinishReportsResult := by
  refine ⟨fun _ _ _ => rfl, fun nm s => ⟨?disabled, fun o hb hf ho => ?result, fun hb hf ho => ?exception⟩⟩
  case disabled =>
    rintro (hb | hf)
    · exact acqFinish_of_idle hb
    · exact acqFinish_of_fault hf nm
  case result =>
    refine ⟨o.snr.getD (Config.freeScalar s.freeCount), fun d hd => by rw [hd]; rfl, ?_⟩
    rw [acqFinish_of_some hb hf ho]
    simp only [finishSearch, State.emitReport, State.emitEvents, Acq.finish, searchReport, searchEvent]
    cases o.ok <;> rfl
  case exception =>
    refine ⟨Config.freeResult s.freeCount, ?_⟩
    rw [acqFinish_of_none hb hf ho, failSearch, raiseFault_of_clear hf]
    rfl

/-- Settles O36: the frame of the engine's turn, and that a search reads the window and its operands only. -/
theorem acqFinishIsPure : Obligations.AcqFinishIsPure :=
  fun nm s _ => ⟨acqFinish_frame nm s, fun hwin hbusy hsv hrange hstep hthr hfault =>
    reportAlike_of_sameOperands ⟨hwin, hbusy, hsv, hrange, hstep, hthr⟩ hfault⟩

/-- Settles O37: with an empty schedule the step is the engine's turn, which a running search has. -/
theorem runningSearchFinishes : Obligations.RunningSearchFinishes := by
  intro s hin hb hf
  refine ⟨_, step_of_nil hin, ?_⟩
  cases ho : search Config.num s.win s.acq with
  | some o =>
    rw [acqFinish_of_some hb hf ho]
    exact .inl ⟨rfl, rfl⟩
  | none =>
    rw [acqFinish_of_none hb hf ho, failSearch_fault, FaultLatch.raise_of_clear hf]
    exact .inr rfl

end Sys2Proof.Machine

/-! PROOFS. The channel step of a sample: code phase, replicas, both NCOs (42_track.md R142 to R151). -/

namespace Sys2Proof.Machine

/-! ### Whole parts -/

/-- The whole part of a rational is the integer it lies above by less than 1. -/
theorem floor_eq_of_mem {x : Rat} {k : Int} (hlow : (k : Rat) ≤ x) (hhigh : x < (k : Rat) + 1) : x.floor = k := by
  have h1 : (x.floor : Rat) ≤ x := Rat.floor_le x
  have h2 : x < (x.floor : Rat) + 1 := by exact_mod_cast Rat.lt_floor_add_one x
  have h3 : (k : Rat) < ((x.floor + 1 : Int) : Rat) := by push_cast; linarith
  have h4 : (x.floor : Rat) < ((k + 1 : Int) : Rat) := by push_cast; linarith
  have h5 := Int.cast_lt.mp h3
  have h6 := Int.cast_lt.mp h4
  omega

/-- The chip at a position is the code's chip of its whole part, wrapped (42_track.md R149). -/
theorem chipAt_of_mem (sv : BitVec 6) {x : Scalar} {k : Int} {i : Nat} (hlow : (k : Rat) ≤ x)
    (hhigh : x < (k : Rat) + 1) (hwrap : k % 1023 = i) : chipAt sv x = prn sv i := by
  rw [chipAt, floor_eq_of_mem hlow hhigh, hwrap, Int.toNat_natCast]

/-! ### The initial code phase -/

theorem lcode_eq : lcode = 1023 := rfl

/-- The first sample writes `cp`, `estart` and the pending flag; `cp` is the remainder of the chips passed. -/
theorem fixPhase_pending {nm : Numerics} {n : Index} {C C' : Channel} (hp : C.phasePending = true)
    (h : fixPhase nm n C = some C') :
    C' = { C with cp := C'.cp, estart := n, phasePending := false } ∧
      nMod nm ((((n.toNat : Int) - C.aidx.toNat - C.cpSeed : Int) : Rat) * C.rate / C.fs) lcode = some C'.cp := by
  simp only [fixPhase, hp, ↓reduceIte, Option.bind_eq_bind, Option.bind_eq_some_iff, Option.pure_def,
    Option.some.injEq] at h
  obtain ⟨chips, hchips, adv, hadv, cp, hcp, rfl⟩ := h
  obtain ⟨-, rfl⟩ := nMul_eq_some.mp hchips
  obtain ⟨-, -, rfl⟩ := nDiv_eq_some.mp hadv
  exact ⟨rfl, hcp⟩

theorem fixPhase_fixed (nm : Numerics) (n : Index) {C : Channel} (hp : C.phasePending = false) :
    fixPhase nm n C = some C := by
  simp [fixPhase, hp]

section
variable {nm : Numerics} (h : unboundedNumerics nm)
include h

theorem nDivMod_of_unbounded {x m : Scalar} (hm : m ≠ 0) :
    nDivMod nm x m = some ((x / m).floor, x - m * ((x / m).floor : Int)) := by
  simp [nDivMod, nDiv_of_unbounded h hm, nMul, nSub, chk_of_unbounded h]

theorem fixPhase_of_unbounded (n : Index) {C : Channel} (hfs : C.fs ≠ 0) : ∃ C', fixPhase nm n C = some C' := by
  have hfs' : (C.fs : Rat) ≠ 0 := Nat.cast_ne_zero.mpr hfs
  cases hp : C.phasePending with
  | false => exact ⟨C, fixPhase_fixed nm n hp⟩
  | true =>
    simp [fixPhase, hp, nMul, chk_of_unbounded h, nDiv_of_unbounded h hfs', nMod, nDivMod_of_unbounded h lcode_pos.ne']

/-! ### The pieces of the channel step, over numerics without exceptions -/

theorem wipeOff_of_unbounded (C : Channel) (x : Cplx) :
    wipeOff nm C x = some
      { re := x.re * nm.cos2pi (-C.theta) - x.im * nm.sin2pi (-C.theta)
        im := x.re * nm.sin2pi (-C.theta) + x.im * nm.cos2pi (-C.theta) } := by
  simp [wipeOff, cis_of_unbounded h, cMul_of_unbounded h]

theorem accumulate_of_unbounded (acc v : Scalar) (chip : Int) : accumulate nm acc v chip = some (acc + v * chip) := by
  simp [accumulate, nMul, nAdd, chk_of_unbounded h]

theorem integrate_of_unbounded (C : Channel) (y : Cplx) :
    integrate nm C y = some { C with
      ie := C.ie + y.re * chipAt C.sv (C.cp + 1 / 2), qe := C.qe + y.im * chipAt C.sv (C.cp + 1 / 2)
      ip := C.ip + y.re * chipAt C.sv C.cp, qp := C.qp + y.im * chipAt C.sv C.cp
      il := C.il + y.re * chipAt C.sv (C.cp - 1 / 2), ql := C.ql + y.im * chipAt C.sv (C.cp - 1 / 2) } := by
  simp only [integrate, accumulate_of_unbounded h, nAdd, nSub, chk_of_unbounded h, Option.bind_eq_bind,
    Option.bind_some, Option.pure_def]

theorem advanceCarrier_of_unbounded {C : Channel} (hfs : C.fs ≠ 0) :
    advanceCarrier nm C =
      some { C with theta := C.theta + C.f / C.fs - ((C.theta + C.f / C.fs).floor : Int) } := by
  have hfs' : (C.fs : Rat) ≠ 0 := Nat.cast_ne_zero.mpr hfs
  simp [advanceCarrier, nDiv_of_unbounded h hfs', nAdd, nFrac, nSub, chk_of_unbounded h]

theorem advanceCode_of_unbounded {C : Channel} (hfs : C.fs ≠ 0) :
    advanceCode nm C = some
      ({ C with cp := C.cp + C.rate / C.fs - lcode * (((C.cp + C.rate / C.fs) / lcode).floor : Int) },
        ((C.cp + C.rate / C.fs) / lcode).floor) := by
  have hfs' : (C.fs : Rat) ≠ 0 := Nat.cast_ne_zero.mpr hfs
  simp [advanceCode, nDiv_of_unbounded h hfs', nAdd, chk_of_unbounded h, nDivMod_of_unbounded h lcode_pos.ne']

end

/-! ### The order of the channel step -/

theorem trackSample_pending (nm : Numerics) (n : Index) (x : Cplx) (C : Channel) :
    trackSample nm n x C = (fixPhase nm n C).bind (trackSample nm n x) := by
  unfold trackSample
  cases hfix : fixPhase nm n C with
  | none => rfl
  | some D =>
    have hfixed : D.phasePending = false := by rw [(fixPhase_some hfix).1]
    simp only [Option.bind_eq_bind, Option.bind_some, fixPhase_fixed nm n hfixed]

theorem chanStep_of_none {nm : Numerics} {n : Index} {x : Cplx} {C : Channel} (h : trackSample nm n x C = none) :
    chanStep nm n x C = { prompts := [], events := [], chan := none } := by
  simp only [chanStep, h]

theorem chanStep_of_some {nm : Numerics} {n : Index} {x : Cplx} {C : Channel} {r : Channel × Int}
    (h : trackSample nm n x C = some r) :
    chanStep nm n x C = if 1 ≤ r.2 then dump nm n r.1 else { prompts := [], events := [], chan := some r.1 } := by
  simp only [chanStep, h]

/-! ### The obligations -/

/-- Settles O38: the phase is the remainder that `nMod` answers. -/
theorem firstSampleFixesCodePhase : Obligations.FirstSampleFixesCodePhase := by
  refine fun nm n C hp => ⟨fun C' h => ?_, fun h hfs => fixPhase_of_unbounded h n hfs⟩
  obtain ⟨hframe, hmod⟩ := fixPhase_pending hp h
  obtain ⟨hlow, hhigh⟩ := nMod_range lcode_pos hmod
  have hrest := nMod_eq_some hmod
  rw [lcode_eq] at hhigh hrest
  exact ⟨hframe, hlow, hhigh, _, sub_eq_iff_eq_add.mp hrest.symm⟩

/-- Settles O39: the pieces in their order, and the dump by the number of wraps. -/
theorem sampleAdvancesChannel : Obligations.SampleAdvancesChannel := by
  refine ⟨fun nm n x C h hfs hp => ?_, fun nm n x C =>
    ⟨fun _ => trackSample_pending nm n x C, chanStep_of_none, fun D w hsome => ⟨fun hw => ?_, fun hw => ?_⟩⟩⟩
  · intro c s yi yq chip cp' th'
    have hearly : chipAt C.sv (C.cp + 1 / 2) = chip (1 / 2) := rfl
    have hprompt : chipAt C.sv C.cp = chip 0 := by simp only [chip, add_zero, chipAt]
    have hlate : chipAt C.sv (C.cp - 1 / 2) = chip (-1 / 2) := by
      simp only [chip, chipAt, sub_eq_add_neg, neg_div]
    simp only [trackSample, fixPhase_fixed nm n hp, wipeOff_of_unbounded h, integrate_of_unbounded h,
      advanceCarrier_of_unbounded h, advanceCode_of_unbounded h, ne_eq, hfs, not_false_eq_true, Option.bind_eq_bind,
      Option.bind_some, hearly, hprompt, hlate]
    rfl
  · rw [chanStep_of_some hsome, if_pos hw]
  · rw [chanStep_of_some hsome, if_neg (not_le.mpr hw)]

/-- Settles O40: the whole parts of the three positions, and their remainders by 1023. -/
theorem replicaChipsWrapAtTheEdges : Obligations.ReplicaChipsWrapAtTheEdges := by
  intro sv cp hlow hhigh
  refine ⟨fun i hi hi' => ?prompt, fun h => ?late, fun h => ?early, fun i hi hcp hcp' => ⟨?earlyInside, ?lateInside⟩⟩
  case prompt =>
    have hlt : (i : Rat) < (1023 : Nat) := by push_cast; linarith
    have hlt' := Nat.cast_lt.mp hlt
    exact chipAt_of_mem sv (k := i) (by exact_mod_cast hi) (by exact_mod_cast hi') (by omega)
  case late => exact chipAt_of_mem sv (k := -1) (by push_cast; linarith) (by push_cast; linarith) (by decide)
  case early => exact chipAt_of_mem sv (k := 1023) (by push_cast; linarith) (by push_cast; linarith) (by decide)
  case earlyInside =>
    exact chipAt_of_mem sv (k := i + 1) (by push_cast; linarith) (by push_cast; linarith) (by omega)
  case lateInside => exact chipAt_of_mem sv (k := i) (by push_cast; linarith) (by push_cast; linarith) (by omega)

end Sys2Proof.Machine

/-! PROOFS. The dump of a code epoch: discriminators, loops, lock detector, state machine (42_track.md R152 to R160). -/

namespace Sys2Proof.Machine

/-! ### The phase discriminator -/

section
variable {nm : Numerics} (h : unboundedNumerics nm)
include h

theorem phaseError_of_ne {i : Scalar} (hi : i ≠ 0) (q : Scalar) : phaseError nm i q = some (nm.atan (q / i)) := by
  simp [phaseError, hi, nDiv_of_unbounded h hi, nAtan, chk_of_unbounded h]

theorem phaseError_of_pos {q : Scalar} (hq : 0 < q) : phaseError nm 0 q = some (nm.pi / 2) := by
  simp [phaseError, hq, nDiv_of_unbounded h two_ne_zero]

theorem phaseError_of_neg {q : Scalar} (hq : q < 0) : phaseError nm 0 q = some (-nm.pi / 2) := by
  simp [phaseError, hq, hq.not_gt, nDiv_of_unbounded h two_ne_zero]

/-- A positive scaling keeps the quotient, and with `I = 0` the sign of `Q`. -/
theorem phaseError_scaled {a : Scalar} (ha : 0 < a) (i q : Scalar) :
    phaseError nm (a * i) (a * q) = phaseError nm i q := by
  by_cases hi : i = 0
  · subst hi
    rw [mul_zero]
    rcases lt_trichotomy q 0 with hq | rfl | hq
    · rw [phaseError_of_neg h hq, phaseError_of_neg h (mul_neg_of_pos_of_neg ha hq)]
    · rw [mul_zero]
    · rw [phaseError_of_pos h hq, phaseError_of_pos h (mul_pos ha hq)]
  · rw [phaseError_of_ne h (mul_ne_zero ha.ne' hi), phaseError_of_ne h hi, mul_div_mul_left _ _ ha.ne']

end

theorem phaseError_zero (nm : Numerics) : phaseError nm 0 0 = some 0 := by
  simp [phaseError]

/-! ### The loops -/

/-- The loop filter and the carrier NCO, with their constants (42_track.md R154, R155). -/
theorem carrierLoop_eq {nm : Numerics} {C C' : Channel} {e : Scalar} (he : phaseError nm C.ip C.qp = some e)
    (h : carrierLoop nm C = some C') :
    C' = { C with
      pint := C.pint + C.wn ^ 2 * (1 / 1000) * e
      f := C.fSeed + (C.pint + C.wn ^ 2 * (1 / 1000) * e + 1414 / 1000 * C.wn * e) / (2 * nm.pi) } := by
  simp only [carrierLoop, he, Option.bind_eq_bind, Option.bind_some, Option.bind_eq_some_iff, Option.pure_def,
    Option.some.injEq] at h
  obtain ⟨_, hwn2, _, hg, _, hdint, _, hpint, _, hz, _, hprop, _, hcorr, _, htwoPi, _, hdf, _, hf, rfl⟩ := h
  obtain ⟨-, rfl⟩ := nMul_eq_some.mp hwn2
  obtain ⟨-, rfl⟩ := nMul_eq_some.mp hg
  obtain ⟨-, rfl⟩ := nMul_eq_some.mp hdint
  obtain ⟨-, rfl⟩ := nAdd_eq_some.mp hpint
  obtain ⟨-, rfl⟩ := nMul_eq_some.mp hz
  obtain ⟨-, rfl⟩ := nMul_eq_some.mp hprop
  obtain ⟨-, rfl⟩ := nAdd_eq_some.mp hcorr
  obtain ⟨-, rfl⟩ := nMul_eq_some.mp htwoPi
  obtain ⟨-, -, rfl⟩ := nDiv_eq_some.mp hdf
  obtain ⟨-, rfl⟩ := nAdd_eq_some.mp hf
  simp only [pow_two]
  rfl

theorem magnitude_eq_some {nm : Numerics} {i q y : Scalar} (h : magnitude nm i q = some y) :
    y = nm.sqrt (i * i + q * q) := by
  simp only [magnitude, normSq, Option.bind_eq_bind, Option.bind_eq_some_iff] at h
  obtain ⟨_, ⟨_, hi, _, hq, hsum⟩, hroot⟩ := h
  obtain ⟨-, rfl⟩ := nMul_eq_some.mp hi
  obtain ⟨-, rfl⟩ := nMul_eq_some.mp hq
  obtain ⟨-, rfl⟩ := nAdd_eq_some.mp hsum
  exact (nSqrt_eq_some.mp hroot).2

/-- The code discriminator: the quotient where a magnitude is positive, else 0 (42_track.md R156). -/
theorem codeError_eq_some {nm : Numerics} {C : Channel} {d : Scalar} (h : codeError nm C = some d) :
    let e := nm.sqrt (C.ie * C.ie + C.qe * C.qe)
    let l := nm.sqrt (C.il * C.il + C.ql * C.ql)
    d = if 0 < e + l then (e - l) / (e + l) else 0 := by
  intro e l
  simp only [codeError, Option.bind_eq_bind, Option.bind_eq_some_iff] at h
  obtain ⟨_, he, _, hl, _, hsum, h⟩ := h
  obtain rfl := magnitude_eq_some he
  obtain rfl := magnitude_eq_some hl
  obtain ⟨-, rfl⟩ := nAdd_eq_some.mp hsum
  split at h
  · next hpos =>
    simp only [Option.bind_eq_some_iff] at h
    obtain ⟨_, hdiff, hquot⟩ := h
    obtain ⟨-, rfl⟩ := nSub_eq_some.mp hdiff
    obtain ⟨-, -, rfl⟩ := nDiv_eq_some.mp hquot
    exact (if_pos hpos).symm
  · next hpos => exact (Option.some.inj h).symm.trans (if_neg hpos).symm

/-- A difference of two magnitudes is at most their sum. -/
theorem normalizedDifference_range {e l : Scalar} (he : 0 ≤ e) (hl : 0 ≤ l) (hpos : 0 < e + l) :
    -1 ≤ (e - l) / (e + l) ∧ (e - l) / (e + l) ≤ 1 := by
  rw [le_div_iff₀ hpos, div_le_iff₀ hpos]
  constructor <;> linarith

theorem codeLoop_eq {nm : Numerics} {C C' : Channel} {d : Scalar} (hd : codeError nm C = some d)
    (h : codeLoop nm C = some C') :
    C' = { C with rate := 1023000 * (1 + C.f / 1575420000) + C.gdll * d } := by
  simp only [codeLoop, hd, Option.bind_eq_bind, Option.bind_some, Option.bind_eq_some_iff, Option.pure_def,
    Option.some.injEq] at h
  obtain ⟨_, hrel, _, hone, _, haided, _, hcorr, _, hrate, rfl⟩ := h
  obtain ⟨-, -, rfl⟩ := nDiv_eq_some.mp hrel
  obtain ⟨-, rfl⟩ := nAdd_eq_some.mp hone
  obtain ⟨-, rfl⟩ := nMul_eq_some.mp haided
  obtain ⟨-, rfl⟩ := nMul_eq_some.mp hcorr
  obtain ⟨-, rfl⟩ := nAdd_eq_some.mp hrate
  rfl

/-! ### The lock detector -/

theorem nSumList_eq_some {nm : Numerics} {l : List Scalar} {y : Scalar} (h : nSumList nm l = some y) : y = l.sum := by
  induction l generalizing y with
  | nil => exact (Option.some.inj h).symm
  | cons x xs ih =>
    simp only [nSumList, Option.bind_eq_bind, Option.bind_eq_some_iff] at h
    obtain ⟨acc, hacc, hsum⟩ := h
    obtain ⟨-, rfl⟩ := nAdd_eq_some.mp hsum
    rw [ih hacc, List.sum_cons]

/-- The squares the detector sums are the exact ones. -/
theorem mapM_squares_eq_some {nm : Numerics} {w : List Cplx} {r : List Scalar}
    (h : w.mapM (fun x => nMul nm x.im x.im) = some r) : r = w.map fun x => x.im ^ 2 := by
  induction w generalizing r with
  | nil => exact (Option.some.inj h).symm
  | cons x xs ih =>
    simp only [List.mapM_cons, Option.bind_eq_bind, Option.bind_eq_some_iff, Option.pure_def, Option.some.injEq] at h
    obtain ⟨y, hy, ys, hys, rfl⟩ := h
    obtain ⟨-, rfl⟩ := nMul_eq_some.mp hy
    rw [ih hys, List.map_cons, pow_two]

theorem lockBelow_eq_some {nm : Numerics} {thr : Scalar} {buf : List Cplx} {b : Bool}
    (h : lockBelow nm thr buf = some b) :
    b = decide (((newest buf).map Cplx.re).sum ^ 2 < 200 * thr * ((newest buf).map fun x => x.im ^ 2).sum) := by
  simp only [lockBelow, Option.bind_eq_bind, Option.bind_eq_some_iff, Option.pure_def, Option.some.injEq] at h
  obtain ⟨si, hsi, squares, hsquares, sq2, hsq2, _, hsi2, _, ha, _, hb, rfl⟩ := h
  obtain ⟨-, rfl⟩ := nMul_eq_some.mp hsi2
  obtain ⟨-, rfl⟩ := nMul_eq_some.mp ha
  obtain ⟨-, rfl⟩ := nMul_eq_some.mp hb
  rw [nSumList_eq_some hsi, nSumList_eq_some hsq2, mapM_squares_eq_some hsquares, pow_two]

/-! ### The prompt buffer -/

theorem pushPrompt_of_lt {buf : List Cplx} (h : buf.length < 1000) (x : Cplx) : pushPrompt buf x = buf ++ [x] := by
  have hdrop : (buf ++ [x]).length - pbufDepth = 0 := by
    simp only [List.length_append, List.length_singleton, pbufDepth]; omega
  rw [pushPrompt, hdrop, List.drop_zero]

/-- A full buffer drops its oldest entry (10_state.md R32). -/
theorem pushPrompt_of_full {buf : List Cplx} (h : buf.length = 1000) (x : Cplx) :
    pushPrompt buf x = buf.tail ++ [x] := by
  have hdrop : (buf ++ [x]).length - pbufDepth = 1 := by simp [pbufDepth, h]
  rw [pushPrompt, hdrop, List.drop_one, List.tail_append_of_ne_nil (List.ne_nil_of_length_pos (by omega))]

/-! ### The dump -/

theorem dump_of_unaligned (nm : Numerics) (n : Index) {C : Channel} (ha : C.aligned = false) :
    dump nm n C =
      { prompts := [], events := [], chan := some (clearEpoch n { C with aligned := true, st := .pullIn }) } := by
  simp [dump, ha]

/-- The PROMPT goes out whether or not the loops have a result. -/
theorem dump_prompts (nm : Numerics) (n : Index) {C : Channel} (ha : C.aligned = true) :
    (dump nm n C).prompts = [promptOf C] := by
  simp only [dump, ha, ↓reduceIte]
  split <;> rfl

/-- A dump with a result runs the two loops and, on the counted record, the state machine. -/
theorem dump_of_aligned {nm : Numerics} {n : Index} {C C' : Channel} (ha : C.aligned = true)
    (h : (dump nm n C).chan = some C') :
    ∃ C1 C2 r, carrierLoop nm C = some C1 ∧ codeLoop nm C1 = some C2 ∧ stateMachine nm n (countPrompt C2) = some r ∧
      C' = clearEpoch n r.1 ∧ (dump nm n C).events = r.2 := by
  simp only [dump, ha, ↓reduceIte] at h ⊢
  cases hloops : dumpLoops nm n C with
  | none => simp [hloops] at h
  | some q =>
    simp only [hloops, Option.some.injEq] at h
    simp only [dumpLoops, carrierLoop_countPrompt, Option.bind_eq_bind, Option.bind_eq_some_iff, Option.map_eq_some_iff,
      Option.pure_def, Option.some.injEq] at hloops
    obtain ⟨_, ⟨C1, h1, rfl⟩, _, hcode, r, hr, rfl⟩ := hloops
    rw [codeLoop_countPrompt, Option.map_eq_some_iff] at hcode
    obtain ⟨C2, h2, rfl⟩ := hcode
    exact ⟨C1, C2, r, h1, h2, hr, h.symm, rfl⟩

/-- The state machine writes the state and its two counters only. -/
theorem stateMachine_frame {nm : Numerics} {n : Index} {C : Channel} {r : Channel × List Event}
    (h : stateMachine nm n C = some r) :
    r.1 = { C with st := r.1.st, pullCnt := r.1.pullCnt, belowCnt := r.1.belowCnt } := by
  rcases stateMachine_some h with ⟨-, rfl⟩ | ⟨-, b, -, rfl⟩ | ⟨-, -, rfl⟩
  · rcases pullInDump_cases n C with ⟨-, hr⟩ | ⟨-, hr⟩ <;> rw [hr]
  · rcases lockedDump_cases n b C with ⟨-, -, hr⟩ | ⟨-, -, hr⟩ | ⟨-, hr⟩ <;> rw [hr]
  · rfl

/-- What a dump with a result writes, field by field: the loops' outcome, the counted prompt, the state machine's three
fields, the cleared epoch. -/
theorem dump_aligned_eq {nm : Numerics} {n : Index} {C C' : Channel} (ha : C.aligned = true)
    (h : (dump nm n C).chan = some C') :
    ∃ C1 C2 st pull below, carrierLoop nm C = some C1 ∧ codeLoop nm C1 = some C2 ∧
      C' = { C with
        pint := C2.pint, f := C2.f, rate := C2.rate
        pbuf := pushPrompt C.pbuf { re := C.ip, im := C.qp }, epochs := C.epochs + 1#32
        st := st, pullCnt := pull, belowCnt := below
        ie := 0, qe := 0, ip := 0, qp := 0, il := 0, ql := 0, estart := n + 1#64 } := by
  obtain ⟨C1, C2, r, h1, h2, hmachine, rfl, -⟩ := dump_of_aligned ha h
  refine ⟨C1, C2, r.1.st, r.1.pullCnt, r.1.belowCnt, h1, h2, ?_⟩
  rw [stateMachine_frame hmachine, loops_some h1 h2]
  simp only [clearEpoch, countPrompt]

/-! ### The obligations -/

/-- Settles O41: the discriminator's four cases; a half turn and a positive scaling leave the quotient. -/
theorem phaseDiscriminatorIsCostas : Obligations.PhaseDiscriminatorIsCostas := by
  intro nm i q h
  refine ⟨fun hi => ⟨phaseError_of_ne h hi q, ?_⟩, ?_, ?_, ?_, fun a ha => phaseError_scaled h ha i q⟩
  · rw [phaseError_of_ne h (neg_ne_zero.mpr hi), phaseError_of_ne h hi, neg_div_neg_eq]
  · rintro rfl hq; exact phaseError_of_pos h hq
  · rintro rfl hq; exact phaseError_of_neg h hq
  · rintro rfl rfl; exact phaseError_zero nm

/-- Settles O42: the loop's operations one after the other; without bandwidth every correction is 0. -/
theorem carrierLoopEquations : Obligations.CarrierLoopEquations := by
  intro nm C C' e he h
  have heq := carrierLoop_eq he h
  refine ⟨heq, fun hwn hpint => ?_⟩
  rw [heq]
  simp [hwn, hpint]

/-- Settles O43: roots of sums of squares are not negative, so the normalized difference lies in [−1, 1]. -/
theorem codeLoopEquations : Obligations.CodeLoopEquations := by
  refine fun nm C => ⟨fun d hd => ?_, fun C' d hd h => codeLoop_eq hd h⟩
  have hroot : ∀ i q : Scalar, 0 ≤ nm.sqrt (i * i + q * q) := fun i q =>
    nm.sqrt_nonneg _ (add_nonneg (mul_self_nonneg i) (mul_self_nonneg q))
  have he := hroot C.ie C.qe
  have hl := hroot C.il C.ql
  have hvalue := codeError_eq_some hd
  dsimp only at hvalue
  by_cases hpos : 0 < nm.sqrt (C.ie * C.ie + C.qe * C.qe) + nm.sqrt (C.il * C.il + C.ql * C.ql)
  · rw [if_pos hpos] at hvalue
    obtain ⟨hlow, hhigh⟩ := normalizedDifference_range he hl hpos
    exact ⟨hvalue ▸ hlow, hvalue ▸ hhigh, fun _ => hvalue, fun hzero => absurd hzero hpos.ne'⟩
  · rw [if_neg hpos] at hvalue
    subst hvalue
    exact ⟨by norm_num, by norm_num, fun hpos' => absurd hpos' hpos, fun _ => rfl⟩

/-- Settles O44: the sums are the exact ones; a right-hand side of 0 is never above a square. -/
theorem lockStatistic : Obligations.LockStatistic := by
  intro nm thr buf b h w
  have hw : newest buf = w := by rw [newest, lockWindow]
  rw [lockBelow_eq_some h, hw]
  refine ⟨decide_eq_true_iff, fun hthr => ?_, fun hsq => ?_⟩
  · rw [decide_eq_false_iff_not, hthr, mul_zero, zero_mul]
    exact not_lt.mpr (sq_nonneg _)
  · rw [decide_eq_false_iff_not, hsq, mul_zero]
    exact not_lt.mpr (sq_nonneg _)

/-- Settles O45: the alignment dump, and the record of a later dump with a result. -/
theorem dumpEmitsOnePrompt : Obligations.DumpEmitsOnePrompt := by
  refine fun nm n C => ⟨fun ha => dump_of_unaligned nm n ha, fun ha => ⟨dump_prompts nm n ha, fun C' h => ?_⟩⟩
  obtain ⟨C1, C2, st, pull, below, h1, h2, rfl⟩ := dump_aligned_eq ha h
  exact ⟨rfl, fun hlt => by simp only [pushPrompt_of_lt hlt],
    fun hfull => by simp only [pushPrompt_of_full hfull], ⟨rfl, rfl, rfl, rfl, rfl, rfl⟩,
    rfl, rfl, rfl, rfl, rfl, ha, rfl, rfl, rfl, rfl, rfl, rfl, rfl, C1, C2, h1, h2, rfl, rfl, rfl⟩

/-- Settles O46: the state machine of a dump, by the state before it. -/
theorem dumpRunsStateMachine : Obligations.DumpRunsStateMachine := by
  intro nm n C C' ha h
  rcases dump_some h with ⟨hpartial, -⟩ | ⟨-, G, r, hG, hmachine, rfl, hevents⟩
  · rw [ha] at hpartial; cases hpartial
  rw [hevents]
  refine ⟨fun hst => ?pullIn, fun hst => ?locked⟩ <;>
    rcases stateMachine_some hmachine with ⟨hG', rfl⟩ | ⟨hG', b, hb, rfl⟩ | ⟨hnotPullIn, hnotLocked, -⟩
  case pullIn.inr.inl => rw [hG.st, hst] at hG'; cases hG'
  case pullIn.inr.inr => exact absurd (hG.st.trans hst) hnotPullIn
  case locked.inl => rw [hG.st, hst] at hG'; cases hG'
  case locked.inr.inr => exact absurd (hG.st.trans hst) hnotLocked
  case pullIn.inl =>
    have hcount : G.pullCnt + 1#9 = C.pullCnt + 1 := by rw [hG.pullCnt]; rfl
    rcases pullInDump_cases n G with ⟨hlast, hr⟩ | ⟨hmore, hr⟩ <;> rw [hr]
    · rw [hcount] at hlast
      refine ⟨hlast.symm, fun _ => ⟨rfl, rfl, ?_⟩, fun hne => absurd hlast hne⟩
      rw [hG.sv]; rfl
    · rw [hcount] at hmore
      exact ⟨hcount, fun heq => absurd heq hmore, fun _ => ⟨hG', hG.belowCnt, rfl⟩⟩
  case locked.inr.inl =>
    rw [hG.thr, hG.pbuf] at hb
    refine ⟨b, hb, ?_⟩
    rcases lockedDump_cases n b G with ⟨rfl, hlast, hr⟩ | ⟨rfl, hmore, hr⟩ | ⟨rfl, hr⟩ <;> rw [hr]
    · rw [hG.belowCnt] at hlast
      refine ⟨hlast.symm, hG.pullCnt, fun _ => ⟨rfl, ?_⟩, fun hne => absurd rfl hne⟩
      rw [hG.sv]; rfl
    · exact ⟨congrArg (· + 1#11) hG.belowCnt, hG.pullCnt, fun heq => absurd heq hmore, fun _ => ⟨hG', rfl⟩⟩
    · exact ⟨rfl, hG.pullCnt, fun heq => absurd heq (show (0 : BitVec 11) ≠ 2000 by decide), fun _ => ⟨hG', rfl⟩⟩

end Sys2Proof.Machine

/-! PROOFS. The raw sample formats (20_memory.md R62). -/

namespace Sys2Proof.Machine

/-! ### Four bytes of a raw sample -/

/-- Four bytes, the lowest first, are 32 bits of the sample. -/
theorem rawByte_append (b : BitVec 64) (k : Nat) :
    rawByte b (k + 3) ++ rawByte b (k + 2) ++ rawByte b (k + 1) ++ rawByte b k = b.extractLsb' (8 * k) 32 := by
  unfold rawByte
  rw [BitVec.extractLsb'_append_extractLsb'_eq_extractLsb' (by omega),
    BitVec.extractLsb'_append_extractLsb'_eq_extractLsb' (by omega),
    BitVec.extractLsb'_append_extractLsb'_eq_extractLsb' (by omega)]

theorem decodeRawWith_float (bias : Scalar) (b : BitVec 64) :
    decodeRawWith bias 2 b =
      match float32Value (b.extractLsb' 0 32), float32Value (b.extractLsb' 32 32) with
      | some i, some q => .sample { re := i, im := q }
      | _, _ => .bad .internalInvariant := by
  rw [← rawByte_append b 0, ← rawByte_append b 4]
  rfl

/-! ### Binary32 -/

/-- The fields of a binary32 word: sign, exponent, fraction. -/
theorem float32_fields (sgn : Bool) (e : BitVec 8) (m : BitVec 23) :
    (BitVec.ofBool sgn ++ e ++ m).extractLsb' 23 8 = e ∧ (BitVec.ofBool sgn ++ e ++ m).extractLsb' 0 23 = m ∧
      (BitVec.ofBool sgn ++ e ++ m).getLsbD 31 = sgn := by
  simp (disch := omega) only [BitVec.extractLsb'_append_eq_of_le, BitVec.extractLsb'_append_eq_of_add_le,
    BitVec.getLsbD_append]
  simp

theorem float32Value_eq_none_iff (w : Word) : float32Value w = none ↔ w.extractLsb' 23 8 = 255#8 := by
  have hexp : (w.extractLsb' 23 8).toNat = 255 ↔ w.extractLsb' 23 8 = 255#8 :=
    (BitVec.toNat_inj (y := 255#8))
  rw [← hexp, float32Value]
  split
  · next he => simp [he]
  · next he =>
    simp only [he, iff_false]
    split
    · exact Option.some_ne_none _
    · split <;> exact Option.some_ne_none _

/-- The scale of a normal number, `2^(e − 150)`, as the model writes it on either side of 150. -/
theorem float32_scale (m : Rat) (e : Nat) :
    m * 2 ^ ((e : Int) - 150) = if 150 ≤ e then m * 2 ^ (e - 150) else m / 2 ^ (150 - e) := by
  split
  · next h =>
    have hexp : (e : Int) - 150 = ((e - 150 : Nat) : Int) := by omega
    rw [hexp, zpow_natCast]
  · next h =>
    have hexp : (e : Int) - 150 = -((150 - e : Nat) : Int) := by omega
    rw [hexp, zpow_neg, zpow_natCast, div_eq_mul_inv]

theorem float32Value_of_fields (sgn : Bool) {e : BitVec 8} (m : BitVec 23) (he : e ≠ 255#8) :
    float32Value (BitVec.ofBool sgn ++ e ++ m) = some ((if sgn then -1 else 1) *
      (if e = 0#8 then (m.toNat : Rat) / 2 ^ 149
        else ((2 ^ 23 + m.toNat : Nat) : Rat) * 2 ^ ((e.toNat : Int) - 150))) := by
  obtain ⟨hexponent, hfraction, hsign⟩ := float32_fields sgn e m
  have hfinite : e.toNat ≠ 255 := fun h => he (BitVec.eq_of_toNat_eq h)
  have hzero : e.toNat = 0 ↔ e = 0#8 := BitVec.toNat_inj (y := 0#8)
  rw [float32Value, hexponent, hfraction, hsign]
  simp only [hfinite, hzero, ↓reduceIte, float32_scale]
  split
  · rfl
  · split <;> rfl

/-! ### The sample step of a raw sample -/

section
variable {nm : Numerics} {n : Index} {b : BitVec 64} {s : State} (hf : s.fault.set = false)
include hf

theorem rawStep_of_sample {x : Cplx} (hd : decodeRaw s b = .sample x) : rawStep nm n b s = sampleStep nm n x s := by
  simp [rawStep, hf, hd]

theorem rawStep_of_bad {k : FatalKind} (hd : decodeRaw s b = .bad k) : rawStep nm n b s = sourceFault k n s := by
  simp [rawStep, hf, hd]

end

/-! ### The obligation -/

/-- Settles O52: the four formats, the binary32 layout, and the sample step of what they decode to. -/
theorem rawSampleFormats : Obligations.RawSampleFormats := by
  refine ⟨fun bias b => ⟨rfl, rfl, rfl, fun i q hi hq => ?float, fun hnone => ?notFinite⟩, float32Value_eq_none_iff,
    fun sgn _ m he => float32Value_of_fields sgn m he, fun _ _ => rfl, fun nm n b s =>
    ⟨fun x hf hd => rawStep_of_sample hf hd, fun k hf hd => ?bad⟩⟩
  case float => rw [decodeRawWith_float, hi, hq]
  case notFinite =>
    rw [decodeRawWith_float]
    rcases hnone with hnone | hnone
    · rw [hnone]
    · rw [hnone]; cases float32Value (b.extractLsb' 0 32) <;> rfl
  case bad =>
    rw [rawStep_of_bad hf hd, sourceFault, raiseFault_of_clear hf]
    cases k <;> rfl

end Sys2Proof.Machine
